-- ==== Sys2Proof/Word.lean ====
section
/-! DEFINITION. The plainest data of CBPE: a bit, a bit sequence (spec 00 rule R12: index 0 is the oldest bit, the
first on the wire) and the 8-bit vector (rule R13: bit 0 is the least significant). -/

namespace Sys2Proof

/-- One wire sample or one register bit. -/
abbrev Bit := Bool

/-- A bit sequence of rule R12: the head is index 0, the oldest bit, the first on the wire. -/
abbrev Bits := List Bool

/-- An 8-bit vector of rule R13 (key code, persisted byte). -/
abbrev Byte := BitVec 8

end Sys2Proof
end

