-- ==== Sys2Proof/Syntax.lean ====
section
/-! DEFINITION. The syntax: one constructor of `Instr` for each row of spec/opcode_table.json (27 rows selected by the
cycle condition word K, 13 by the decode condition word J, 3 functions, 12 formats), and the named values those rows
speak of. -/

namespace Sys2Proof

/-- AlarmStatus (10 rule R31, 30 rule R95): codes 0..6 in this order; code 7 does not exist. -/
inductive AlarmStatus where
  | disarmed | armedTotal | armedPartial | triggered | chime | armingTotal | armingPartial
  deriving DecidableEq, Repr

/-- The values of the output `cmd_resp` (30 rule R97); value 3 is never produced. -/
inductive CmdResp where
  | noRequest | accepted | busy
  deriving DecidableEq, Repr

/-- The values of the output `tx_result` (30 rule R97); value 3 is never produced. -/
inductive TxResult where
  | sent | clockTimeout | windowTimeout
  deriving DecidableEq, Repr

/-- The values of the output `trc_reason` (30 rule R97). -/
inductive TrcReason where
  | zoneReport | statusReport | notMultipleOf8 | not72
  deriving DecidableEq, Repr

/-- The 24-bit input word IN of one cycle, field by field (10 rule R21, 30 rule R98). -/
structure InWord where
  /-- IN[0] -/
  rst : Bool
  /-- IN[1] -/
  pclk : Bool
  /-- IN[2] -/
  pdataI : Bool
  /-- IN[3] -/
  cmdValid : Bool
  /-- IN[11:4] -/
  cmdCode : Byte
  /-- IN[12] -/
  dbgTraceEn : Bool
  /-- IN[13] -/
  errClr : Bool
  /-- IN[14] -/
  storeFail : Bool
  /-- IN[15]: must be 0, ignored -/
  reserved : Bool
  /-- IN[23:16] -/
  statusInit : Byte
  deriving DecidableEq, Repr

/-- The 18 bits of the cycle condition word K, bit 0 first (30 rule R99). `hit` is K[11], the bit the spec
calls `match`. -/
inductive KBit where
  | rst | fall | txa | txh | pclk | fsv | cmdv | cpv | txw | eclr | sfail | hit | ins | fits | ovf | last | cte | wte
  deriving DecidableEq, Repr

/-- The 8 bits of the decode condition word J, bit 0 first (43 rule R162). -/
inductive JBit where
  | sten | odd | n72 | disc | dbg | simple | force | chg
  deriving DecidableEq, Repr

/-- The operations and formats of CBPE: one constructor per row of spec/opcode_table.json, in the table's order. -/
inductive Instr where
  -- Rows selected by K.
  | reset | errClear | edgeDetect | decode | sample | sampleSuspend | winAppend | ageInc | flagMatch
  | framePublish | frameDrop | boundaryToggle | syncRecover | quietDetect | cmdAccept | cmdReject
  | txLoad | txWaitWindow | txWinTimeout | txDrive | txAdvance | txRelease
  | txStallL | txStallH | txClkTimeoutL | txClkTimeoutH | storeFailLatch
  -- Rows selected by J, inside DECODE.
  | destuff | discardMalformed | discardLength | zoneDecode | zoneForce | statusDecode
  | nextStatusRich | nextStatusSimple | updPublishStatus | updPublishZone | updStoreStatus | updStoreZone | trace
  -- Functions.
  /-- STUFF of the bit sequence `x` (42 rule R152). -/
  | stuff (x : Bits)
  /-- TX_BUILD of the key code `code` (45 rule R203). -/
  | txBuild (code : Byte)
  | statusLoad
  -- Formats.
  | flagVRef
  /-- A raw frame with the (stuffed) payload bits `p` between its two flags (30 rule R83). -/
  | rawFrame (p : Bits)
  /-- A destuffed Zone Report in the V_REF layout (30 rules R85, R87); `gap1`, `gap2` are the ignored bits, vector
  bit `k` of a field is its `k`-th bit on the wire. -/
  | zoneReport (bank : Bool) (gap1 : BitVec 7) (active trig : Byte) (gap2 : BitVec 31)
  /-- A destuffed Status Report in the V_REF layout (30 rules R85, R88); `gap1`, `gap2`, `gap3` are the ignored bits. -/
  | statusReport (gap1 : Byte) (a b c : Bool) (gap2 : BitVec 5) (t p : Bool) (gap3 : BitVec 37)
  /-- The unstuffed command frame of the key code `code` (30 rule R90). -/
  | cmdFrame (code : Byte)
  /-- The input word of one cycle (30 rule R98). -/
  | inWord (f : InWord)
  /-- The 3-bit status code (30 rule R95). -/
  | statusCode (st : AlarmStatus)
  /-- The persisted byte (30 rule R96). -/
  | persistedByte (b : Byte)
  /-- The code word of `cmd_resp` (30 rule R97). -/
  | cmdResp (r : CmdResp)
  /-- The code word of `tx_result` (30 rule R97). -/
  | txResult (r : TxResult)
  /-- The code word of `trc_reason` (30 rule R97). -/
  | trcReason (r : TrcReason)
  /-- The sticky error register's bits (10 rule R32). -/
  | errBits (e : BitVec 4)
  deriving DecidableEq, Repr

end Sys2Proof
end

