-- ==== Sys2Proof/Config.lean ====
section
/-! DEFINITION. What is fixed for the machine: the static Variant record (00 rule R8), the constants of rule R9, the named
variants of rules R8 and R11, and the one free value, the input word of a cycle for which no stimulus is placed
(rule R18: the environment is "a free draw each cycle"). -/

namespace Sys2Proof

/-- `DECODE_MODE` (00 rule R8). -/
inductive DecodeMode where
  | rich | simple
  deriving DecidableEq, Repr

/-- The static configuration record of 00 rule R8. `N` is not a field: it is the length of `flag`.
`loadMap` lists the bytes at which `LOAD_MAP` differs from `min(v, 6)` and `storeMap` the codes at which `STORE_MAP`
differs from `zext_8`, so every pair of total functions is some pair of lists; that `LOAD_MAP` stays in 0..6 holds by
the type (notes/assumptions/3.md, DESIGN CHOICE). -/
structure Variant where
  /-- window capacity `C` -/
  cap : Nat
  /-- `FLAG[0..N-1]`, first on the wire first -/
  flag : Bits
  /-- quiet run `Q` -/
  quiet : Nat
  /-- `STUFF_EN` -/
  stuffEn : Bool
  /-- stuffing run `S` -/
  run : Nat
  idxDisc : Nat
  idxBank : Nat
  idxActive : Nat
  idxA : Nat
  idxB : Nat
  idxC : Nat
  idxTotal : Nat
  idxPartial : Nat
  decodeMode : DecodeMode
  /-- `ZONE_TRIG_FORCES` -/
  zoneTrigForces : Bool
  /-- `HDR[0..23]`, first on the wire first -/
  hdr : Bits
  /-- `CLK_TIMEOUT` -/
  clkTimeout : Nat
  /-- `WINDOW_TIMEOUT` -/
  windowTimeout : Nat
  loadMap : List (Byte × AlarmStatus)
  storeMap : List (AlarmStatus × Byte)
  deriving DecidableEq, Repr

/-- `N`, the length of the flag. -/
abbrev Variant.n (v : Variant) : Nat := v.flag.length

namespace Config

/-- `FRAME_LEN` (00 rule R9). -/
abbrev frameLen : Nat := 72

/-- `TXMAX`, the longest transmit sequence (00 rule R9). -/
def txMax (v : Variant) : Nat :=
  if v.stuffEn then 32 + 32 / v.run + v.n + 1 else 32 + v.n + 1

/-- `ceil(log2(n))`, the least `k` with `n ≤ 2 ^ k`. -/
def ceilLog2 (n : Nat) : Nat := if n ≤ 1 then 0 else Nat.log2 (n - 1) + 1

/-- `AGE_W`, the bits of the signed register `age` (00 rule R9): room for -1..`C + 1` in two's complement. -/
def ageW (v : Variant) : Nat := ceilLog2 (v.cap + 2) + 1

/-- The reference variant `V_REF` (00 rule R8); its numbers are the spec's placeholders. -/
def vRef : Variant where
  cap := 128
  flag := [false, true, true, true, true, true, true, false]
  quiet := 10
  stuffEn := true
  run := 5
  idxDisc := 63
  idxBank := 8
  idxActive := 16
  idxA := 16
  idxB := 17
  idxC := 18
  idxTotal := 24
  idxPartial := 25
  decodeMode := .rich
  zoneTrigForces := false
  hdr := [false, false, false, false, false, false, false, true,
          false, false, false, false, false, false, true, false,
          false, false, false, false, false, false, true, true]
  clkTimeout := 1000
  windowTimeout := 1000000
  loadMap := []
  storeMap := []

/-- `V_T` (00 rule R11). -/
def vT : Variant := { vRef with clkTimeout := 4, windowTimeout := 6 }

/-- `V_TOY` (00 rule R11). -/
def vToy : Variant := { vRef with cap := 16 }

/-- `V_SIMPLE` (00 rule R11). -/
def vSimple : Variant := { vRef with decodeMode := .simple, zoneTrigForces := true }

/-- FREE VALUE: the input word of the `k`-th cycle for which the stimulus list holds none (00 rule R18: the panel and the
host "appear only as the per-cycle input word, which a model treats as a free draw each cycle"). Nothing constrains it
(notes/assumptions/5.md). -/
opaque freeIn : Nat → BitVec 24

end Config
end Sys2Proof
end

