-- ==== Sys2Proof/WellFormed.lean ====
section
/-! DEFINITION. Well-formedness: of a Variant (00 rule R10, clause by clause) and of an instruction (the operands its
encoding admits). -/

namespace Sys2Proof

/-- 00 rule R10, with rule R8's length of `HDR`. The clause "LOAD_MAP returns a value in 0..6" holds by the type of
`Variant.loadMap`. -/
def Variant.wf (v : Variant) : Bool :=
  decide (1 ≤ v.n) && decide (1 ≤ v.quiet) && decide (v.n ≤ v.cap) && decide (v.quiet ≤ v.cap) && decide (1 ≤ v.run)
    && decide (v.idxDisc < Config.frameLen) && decide (v.idxBank < Config.frameLen)
    && decide (v.idxActive + 16 ≤ Config.frameLen)
    && decide (v.idxA < Config.frameLen) && decide (v.idxB < Config.frameLen) && decide (v.idxC < Config.frameLen)
    && decide (v.idxTotal < Config.frameLen) && decide (v.idxPartial < Config.frameLen)
    && decide (1 ≤ v.clkTimeout) && decide (1 ≤ v.windowTimeout) && decide (v.hdr.length = 24)

/-- The longest payload of a RAW_FRAME row: `C - 2N` for V_REF (30 rule R83 and the table's "0..C-2N of them"). -/
abbrev maxPayload : Nat := 112

/-- An instruction's operands fit its encoding: the operand of STUFF has at most 255 bits (the model's length octet), the
payload of RAW_FRAME at most `C - 2N`. Every other operand is legal at every value. -/
def Instr.wf (i : Instr) : Bool :=
  match i with
  | .stuff x => decide (x.length ≤ 255)
  | .rawFrame p => decide (p.length ≤ maxPayload)
  | .reset => true
  | .errClear => true
  | .edgeDetect => true
  | .decode => true
  | .sample => true
  | .sampleSuspend => true
  | .winAppend => true
  | .ageInc => true
  | .flagMatch => true
  | .framePublish => true
  | .frameDrop => true
  | .boundaryToggle => true
  | .syncRecover => true
  | .quietDetect => true
  | .cmdAccept => true
  | .cmdReject => true
  | .txLoad => true
  | .txWaitWindow => true
  | .txWinTimeout => true
  | .txDrive => true
  | .txAdvance => true
  | .txRelease => true
  | .txStallL => true
  | .txStallH => true
  | .txClkTimeoutL => true
  | .txClkTimeoutH => true
  | .storeFailLatch => true
  | .destuff => true
  | .discardMalformed => true
  | .discardLength => true
  | .zoneDecode => true
  | .zoneForce => true
  | .statusDecode => true
  | .nextStatusRich => true
  | .nextStatusSimple => true
  | .updPublishStatus => true
  | .updPublishZone => true
  | .updStoreStatus => true
  | .updStoreZone => true
  | .trace => true
  | .txBuild _ => true
  | .statusLoad => true
  | .flagVRef => true
  | .zoneReport _ _ _ _ _ => true
  | .statusReport _ _ _ _ _ _ _ _ => true
  | .cmdFrame _ => true
  | .inWord _ => true
  | .statusCode _ => true
  | .persistedByte _ => true
  | .cmdResp _ => true
  | .txResult _ => true
  | .trcReason _ => true
  | .errBits _ => true

end Sys2Proof
end

