-- ==== Sys2Proof/Decode.lean ====
section
/-! DEFINITION. The decoder and, after it, the encoder. CBPE fetches no instructions (20 rule R73): its opcode table selects
operations by patterns over the condition words K (30 rule R99) and J (43 rule R162), and lists the wire and port formats.
The model's code stream is a bit list (the addressable unit of every space of CBPE is one bit, 20 rule R60): eight bits
of row number (the row's place in spec/opcode_table.json, bit 0 first), then the row's own bits, bit 0 or the first wire
bit first (notes/assumptions/7.md, DESIGN CHOICE: several rows of the table share one pattern, so the pattern alone
names no row). The words the machine itself fetches are the 24-bit input words of 30 rule R98: `decodeIn`. -/

namespace Sys2Proof

/-! ## Bits and numbers -/

/-- The bits of a vector, least significant first. -/
def bitsOf {n : Nat} (v : BitVec n) : Bits := (List.range n).map fun i => v.getLsbD i

/-- The number whose binary digits, least significant first, are `b`. -/
def natOf (b : Bits) : Nat :=
  match b with
  | [] => 0
  | x :: r => (if x then 1 else 0) + 2 * natOf r

/-- The `n`-bit vector with the bits `b`, least significant first. -/
def vecOf (n : Nat) (b : Bits) : BitVec n := BitVec.ofNat n (natOf b)

/-- The `n` low bits of the number `w`, least significant first. -/
def numBits (n w : Nat) : Bits := (List.range n).map fun i => w.testBit i

/-! ## The tables of patterns -/

/-- The number of a K bit (30 rule R99). -/
def KBit.index (b : KBit) : Nat :=
  match b with
  | .rst => 0 | .fall => 1 | .txa => 2 | .txh => 3 | .pclk => 4 | .fsv => 5 | .cmdv => 6 | .cpv => 7 | .txw => 8
  | .eclr => 9 | .sfail => 10 | .hit => 11 | .ins => 12 | .fits => 13 | .ovf => 14 | .last => 15 | .cte => 16 | .wte => 17

/-- The number of a J bit (43 rule R162). -/
def JBit.index (b : JBit) : Nat :=
  match b with
  | .sten => 0 | .odd => 1 | .n72 => 2 | .disc => 3 | .dbg => 4 | .simple => 5 | .force => 6 | .chg => 7

/-- The selection pattern over K of a row (30 rule R99): the bits that are not don't-care, with the value asked. Empty for
the rows that K does not select. -/
def kPattern (i : Instr) : List (KBit × Bool) :=
  match i with
  | .reset => [(.rst, true)]
  | .errClear => [(.rst, false), (.eclr, true)]
  | .edgeDetect => [(.rst, false)]
  | .decode => [(.rst, false), (.fsv, true)]
  | .sample => [(.rst, false), (.fall, true), (.txa, false)]
  | .sampleSuspend => [(.rst, false), (.fall, true), (.txa, true)]
  | .winAppend => [(.rst, false), (.fall, true), (.txa, false)]
  | .ageInc => [(.rst, false), (.fall, true), (.txa, false)]
  | .flagMatch => [(.rst, false), (.fall, true), (.txa, false)]
  | .framePublish => [(.rst, false), (.fall, true), (.txa, false), (.hit, true), (.ins, true), (.fits, true)]
  | .frameDrop => [(.rst, false), (.fall, true), (.txa, false), (.hit, true), (.ins, true), (.fits, false)]
  | .boundaryToggle => [(.rst, false), (.fall, true), (.txa, false), (.hit, true)]
  | .syncRecover => [(.rst, false), (.fall, true), (.txa, false), (.hit, false), (.ovf, true)]
  | .quietDetect => [(.rst, false), (.fall, true), (.txa, false)]
  | .cmdAccept => [(.rst, false), (.cmdv, true), (.cpv, false)]
  | .cmdReject => [(.rst, false), (.cmdv, true), (.cpv, true)]
  | .txLoad => [(.rst, false), (.txa, false), (.cpv, true), (.txw, true)]
  | .txWaitWindow => [(.rst, false), (.txa, false), (.cpv, true), (.txw, false), (.wte, false)]
  | .txWinTimeout => [(.rst, false), (.txa, false), (.cpv, true), (.txw, false), (.wte, true)]
  | .txDrive => [(.rst, false), (.txa, true), (.txh, false), (.pclk, false)]
  | .txAdvance => [(.rst, false), (.txa, true), (.txh, true), (.pclk, true), (.last, false)]
  | .txRelease => [(.rst, false), (.txa, true), (.txh, true), (.pclk, true), (.last, true)]
  | .txStallL => [(.rst, false), (.txa, true), (.txh, false), (.pclk, true), (.cte, false)]
  | .txStallH => [(.rst, false), (.txa, true), (.txh, true), (.pclk, false), (.cte, false)]
  | .txClkTimeoutL => [(.rst, false), (.txa, true), (.txh, false), (.pclk, true), (.cte, true)]
  | .txClkTimeoutH => [(.rst, false), (.txa, true), (.txh, true), (.pclk, false), (.cte, true)]
  | .storeFailLatch => [(.rst, false), (.sfail, true)]
  | .destuff => []
  | .discardMalformed => []
  | .discardLength => []
  | .zoneDecode => []
  | .zoneForce => []
  | .statusDecode => []
  | .nextStatusRich => []
  | .nextStatusSimple => []
  | .updPublishStatus => []
  | .updPublishZone => []
  | .updStoreStatus => []
  | .updStoreZone => []
  | .trace => []
  | .stuff _ => []
  | .txBuild _ => []
  | .statusLoad => []
  | .flagVRef => []
  | .rawFrame _ => []
  | .zoneReport _ _ _ _ _ => []
  | .statusReport _ _ _ _ _ _ _ _ => []
  | .cmdFrame _ => []
  | .inWord _ => []
  | .statusCode _ => []
  | .persistedByte _ => []
  | .cmdResp _ => []
  | .txResult _ => []
  | .trcReason _ => []
  | .errBits _ => []

/-- The selection pattern over J of a part of DECODE (43 rule R162). Empty for the rows that J does not select. -/
def jPattern (i : Instr) : List (JBit × Bool) :=
  match i with
  | .reset => []
  | .errClear => []
  | .edgeDetect => []
  | .decode => []
  | .sample => []
  | .sampleSuspend => []
  | .winAppend => []
  | .ageInc => []
  | .flagMatch => []
  | .framePublish => []
  | .frameDrop => []
  | .boundaryToggle => []
  | .syncRecover => []
  | .quietDetect => []
  | .cmdAccept => []
  | .cmdReject => []
  | .txLoad => []
  | .txWaitWindow => []
  | .txWinTimeout => []
  | .txDrive => []
  | .txAdvance => []
  | .txRelease => []
  | .txStallL => []
  | .txStallH => []
  | .txClkTimeoutL => []
  | .txClkTimeoutH => []
  | .storeFailLatch => []
  | .destuff => [(.sten, true)]
  | .discardMalformed => [(.odd, true)]
  | .discardLength => [(.odd, false), (.n72, true)]
  | .zoneDecode => [(.odd, false), (.n72, false), (.disc, false)]
  | .zoneForce => [(.odd, false), (.n72, false), (.disc, false), (.force, true)]
  | .statusDecode => [(.odd, false), (.n72, false), (.disc, true)]
  | .nextStatusRich => [(.odd, false), (.n72, false), (.disc, true), (.simple, false)]
  | .nextStatusSimple => [(.odd, false), (.n72, false), (.disc, true), (.simple, true)]
  | .updPublishStatus => [(.odd, false), (.n72, false), (.disc, true)]
  | .updPublishZone => [(.odd, false), (.n72, false), (.disc, false), (.force, true)]
  | .updStoreStatus => [(.odd, false), (.n72, false), (.disc, true), (.chg, true)]
  | .updStoreZone => [(.odd, false), (.n72, false), (.disc, false), (.force, true), (.chg, true)]
  | .trace => [(.dbg, true)]
  | .stuff _ => []
  | .txBuild _ => []
  | .statusLoad => []
  | .flagVRef => []
  | .rawFrame _ => []
  | .zoneReport _ _ _ _ _ => []
  | .statusReport _ _ _ _ _ _ _ _ => []
  | .cmdFrame _ => []
  | .inWord _ => []
  | .statusCode _ => []
  | .persistedByte _ => []
  | .cmdResp _ => []
  | .txResult _ => []
  | .trcReason _ => []
  | .errBits _ => []

/-- `(word & mask) == match` for a K word given as bits, bit 0 first. -/
def kMatches (i : Instr) (word : Bits) : Bool :=
  (kPattern i).all fun p => (word.getD p.1.index false) == p.2

/-- `(word & mask) == match` for a J word given as bits, bit 0 first. -/
def jMatches (i : Instr) (word : Bits) : Bool :=
  (jPattern i).all fun p => (word.getD p.1.index false) == p.2

/-- The `match` value of a K row as its 18 bits: the bits the pattern wants 1, every other bit 0. -/
def kWord (i : Instr) : Bits :=
  (List.range 18).map fun n => (kPattern i).any fun p => p.1.index == n && p.2

/-- The `match` value of a J row as its 8 bits. -/
def jWord (i : Instr) : Bits :=
  (List.range 8).map fun n => (jPattern i).any fun p => p.1.index == n && p.2

/-! ## Code words -/

/-- 30 rule R95. -/
def statusNum (st : AlarmStatus) : BitVec 3 :=
  match st with
  | .disarmed => 0 | .armedTotal => 1 | .armedPartial => 2 | .triggered => 3 | .chime => 4 | .armingTotal => 5
  | .armingPartial => 6

/-- 30 rule R95; code 7 names no status. -/
def statusOfNum (c : Nat) : Option AlarmStatus :=
  match c with
  | 0 => some .disarmed | 1 => some .armedTotal | 2 => some .armedPartial | 3 => some .triggered | 4 => some .chime
  | 5 => some .armingTotal | 6 => some .armingPartial | _ => none

/-- 30 rule R97, `cmd_resp`. -/
def cmdRespNum (r : CmdResp) : BitVec 2 :=
  match r with
  | .noRequest => 0 | .accepted => 1 | .busy => 2

/-- 30 rule R97; 3 is never produced. -/
def cmdRespOfNum (c : Nat) : Option CmdResp :=
  match c with
  | 0 => some .noRequest | 1 => some .accepted | 2 => some .busy | _ => none

/-- 30 rule R97, `tx_result`. -/
def txResultNum (r : TxResult) : BitVec 2 :=
  match r with
  | .sent => 0 | .clockTimeout => 1 | .windowTimeout => 2

/-- 30 rule R97; 3 is never produced. -/
def txResultOfNum (c : Nat) : Option TxResult :=
  match c with
  | 0 => some .sent | 1 => some .clockTimeout | 2 => some .windowTimeout | _ => none

/-- 30 rule R97, `trc_reason`. -/
def trcReasonNum (r : TrcReason) : BitVec 2 :=
  match r with
  | .zoneReport => 0 | .statusReport => 1 | .notMultipleOf8 => 2 | .not72 => 3

/-- 30 rule R97. -/
def trcReasonOfNum (c : Nat) : Option TrcReason :=
  match c with
  | 0 => some .zoneReport | 1 => some .statusReport | 2 => some .notMultipleOf8 | 3 => some .not72 | _ => none

/-! ## The input word -/

/-- The fields of a 24-bit input word (30 rule R98). -/
def inFields (w : BitVec 24) : InWord where
  rst := w.getLsbD 0
  pclk := w.getLsbD 1
  pdataI := w.getLsbD 2
  cmdValid := w.getLsbD 3
  cmdCode := w.extractLsb' 4 8
  dbgTraceEn := w.getLsbD 12
  errClr := w.getLsbD 13
  storeFail := w.getLsbD 14
  reserved := w.getLsbD 15
  statusInit := w.extractLsb' 16 8

/-- The bits of an input word, IN[0] first (30 rule R98). -/
def inBits (f : InWord) : Bits :=
  [f.rst, f.pclk, f.pdataI, f.cmdValid] ++ bitsOf f.cmdCode ++ [f.dbgTraceEn, f.errClr, f.storeFail, f.reserved]
    ++ bitsOf f.statusInit

/-- The 24-bit input word with these fields (30 rule R98). -/
def inWordOf (f : InWord) : BitVec 24 := vecOf 24 (inBits f)

/-- The decoder of the words the machine fetches: every 24-bit word is an input word (30 rule R98; IN[15] is ignored,
rule R101), so it refuses none. -/
def decodeIn (w : BitVec 24) : Instr := .inWord (inFields w)

/-! ## The decoder -/

/-- Why a code stream is refused. -/
inductive DecodeError where
  /-- fewer bits than the row needs -/
  | truncated
  /-- the row number is not one of the 55 rows -/
  | unknownRow
  /-- the row's fixed bits (its pattern, its flags, its header) are not the table's -/
  | patternMismatch
  /-- a code value the spec says is never produced (30 rules R95, R97) -/
  | reservedCode
  /-- a raw frame shorter than two flags or longer than the window (30 rule R83) -/
  | badLength
  deriving DecidableEq, Repr

/-- What the decoder answers: the instruction and the bits after it, or a refusal by name. -/
abbrev Decoded := Except DecodeError (Instr × Bits)

/-- Hand the first `n` bits and the rest to `k`, or refuse a stream that is too short. -/
def withBits (n : Nat) (b : Bits) (k : Bits → Bits → Decoded) : Decoded :=
  if b.length < n then .error .truncated else k (b.take n) (b.drop n)

/-- The rest of the stream of a row with the instruction `i`, refused unless `ok`. -/
def orMismatch (ok : Bool) (i : Instr) (rest : Bits) : Decoded :=
  if ok then .ok (i, rest) else .error .patternMismatch

/-- An 18-bit K word that the row `i` must match. -/
def decodeK (i : Instr) (b : Bits) : Decoded := withBits 18 b fun w rest => orMismatch (kMatches i w) i rest

/-- An 8-bit J word that the row `i` must match. -/
def decodeJ (i : Instr) (b : Bits) : Decoded := withBits 8 b fun w rest => orMismatch (jMatches i w) i rest

/-- A code of `n` bits whose value `f` reads. -/
def decodeCode {α : Type} (n : Nat) (f : Nat → Option α) (mk : α → Instr) (b : Bits) : Decoded :=
  withBits n b fun w rest =>
    match f (natOf w) with
    | some c => .ok (mk c, rest)
    | none => .error .reservedCode

/-- The bits of V_REF's flag (30 rule R82). -/
abbrev flagBits : Bits := Config.vRef.flag

/-- A raw frame of `n` bits between flags (30 rule R83). -/
def decodeRaw (n : Nat) (b : Bits) : Decoded :=
  if n < 16 ∨ 16 + maxPayload < n then .error .badLength
  else withBits 8 b fun f1 b1 => withBits (n - 16) b1 fun p b2 => withBits 8 b2 fun f2 rest =>
    orMismatch (f1 == flagBits && f2 == flagBits) (.rawFrame p) rest

/-- A destuffed Zone Report in V_REF's layout (30 rules R85, R87). -/
def decodeZone (b : Bits) : Decoded :=
  withBits 8 b fun f1 b1 => withBits 1 b1 fun k b2 => withBits 7 b2 fun g b3 => withBits 8 b3 fun a b4 =>
    withBits 8 b4 fun t b5 => withBits 31 b5 fun h b6 => withBits 1 b6 fun d b7 => withBits 8 b7 fun f2 rest =>
      orMismatch (f1 == flagBits && f2 == flagBits && d == [false])
        (.zoneReport (k.headD false) (vecOf 7 g) (vecOf 8 a) (vecOf 8 t) (vecOf 31 h)) rest

/-- A destuffed Status Report in V_REF's layout (30 rules R85, R88). -/
def decodeStatus (b : Bits) : Decoded :=
  withBits 8 b fun f1 b1 => withBits 8 b1 fun g b2 => withBits 1 b2 fun x b3 => withBits 1 b3 fun y b4 =>
    withBits 1 b4 fun z b5 => withBits 5 b5 fun h b6 => withBits 1 b6 fun t b7 => withBits 1 b7 fun p b8 =>
      withBits 37 b8 fun e b9 => withBits 1 b9 fun d b10 => withBits 8 b10 fun f2 rest =>
        orMismatch (f1 == flagBits && f2 == flagBits && d == [true])
          (.statusReport (vecOf 8 g) (x.headD false) (y.headD false) (z.headD false) (vecOf 5 h) (t.headD false)
            (p.headD false) (vecOf 37 e)) rest

/-- An unstuffed command frame with V_REF's header (30 rule R90). -/
def decodeCmd (b : Bits) : Decoded :=
  withBits 24 b fun h b1 => withBits 8 b1 fun k b2 => withBits 8 b2 fun f b3 => withBits 1 b3 fun z rest =>
    orMismatch (h == Config.vRef.hdr && f == flagBits && z == [false]) (.cmdFrame (vecOf 8 k)) rest

/-- The bits of row number `n` of the table. -/
def decodeRow (n : Nat) (b : Bits) : Decoded :=
  match n with
  | 0 => decodeK .reset b
  | 1 => decodeK .errClear b
  | 2 => decodeK .edgeDetect b
  | 3 => decodeK .decode b
  | 4 => decodeK .sample b
  | 5 => decodeK .sampleSuspend b
  | 6 => decodeK .winAppend b
  | 7 => decodeK .ageInc b
  | 8 => decodeK .flagMatch b
  | 9 => decodeK .framePublish b
  | 10 => decodeK .frameDrop b
  | 11 => decodeK .boundaryToggle b
  | 12 => decodeK .syncRecover b
  | 13 => decodeK .quietDetect b
  | 14 => decodeK .cmdAccept b
  | 15 => decodeK .cmdReject b
  | 16 => decodeK .txLoad b
  | 17 => decodeK .txWaitWindow b
  | 18 => decodeK .txWinTimeout b
  | 19 => decodeK .txDrive b
  | 20 => decodeK .txAdvance b
  | 21 => decodeK .txRelease b
  | 22 => decodeK .txStallL b
  | 23 => decodeK .txStallH b
  | 24 => decodeK .txClkTimeoutL b
  | 25 => decodeK .txClkTimeoutH b
  | 26 => decodeK .storeFailLatch b
  | 27 => decodeJ .destuff b
  | 28 => decodeJ .discardMalformed b
  | 29 => decodeJ .discardLength b
  | 30 => decodeJ .zoneDecode b
  | 31 => decodeJ .zoneForce b
  | 32 => decodeJ .statusDecode b
  | 33 => decodeJ .nextStatusRich b
  | 34 => decodeJ .nextStatusSimple b
  | 35 => decodeJ .updPublishStatus b
  | 36 => decodeJ .updPublishZone b
  | 37 => decodeJ .updStoreStatus b
  | 38 => decodeJ .updStoreZone b
  | 39 => decodeJ .trace b
  | 40 => withBits 8 b fun l b1 => withBits (natOf l) b1 fun x rest => .ok (.stuff x, rest)
  | 41 => withBits 8 b fun k rest => .ok (.txBuild (vecOf 8 k), rest)
  | 42 => .ok (.statusLoad, b)
  | 43 => withBits 8 b fun f rest => orMismatch (f == flagBits) .flagVRef rest
  | 44 => withBits 8 b fun l b1 => decodeRaw (natOf l) b1
  | 45 => decodeZone b
  | 46 => decodeStatus b
  | 47 => decodeCmd b
  | 48 => withBits 24 b fun w rest => .ok (decodeIn (vecOf 24 w), rest)
  | 49 => decodeCode 3 statusOfNum .statusCode b
  | 50 => withBits 8 b fun w rest => .ok (.persistedByte (vecOf 8 w), rest)
  | 51 => decodeCode 2 cmdRespOfNum .cmdResp b
  | 52 => decodeCode 2 txResultOfNum .txResult b
  | 53 => decodeCode 2 trcReasonOfNum .trcReason b
  | 54 => withBits 4 b fun w rest => .ok (.errBits (vecOf 4 w), rest)
  | _ => .error .unknownRow

/-- The decoder, total on every bit stream. -/
def decode (b : Bits) : Decoded := withBits 8 b fun r rest => decodeRow (natOf r) rest

/-! ## Words without a row number -/

/-- The rows that the condition word K selects, in the table's order. -/
def kRows : List Instr :=
  [.reset, .errClear, .edgeDetect, .decode, .sample, .sampleSuspend, .winAppend, .ageInc, .flagMatch, .framePublish,
   .frameDrop, .boundaryToggle, .syncRecover, .quietDetect, .cmdAccept, .cmdReject, .txLoad, .txWaitWindow,
   .txWinTimeout, .txDrive, .txAdvance, .txRelease, .txStallL, .txStallH, .txClkTimeoutL, .txClkTimeoutH,
   .storeFailLatch]

/-- The rows that the decode condition word J selects, in the table's order. -/
def jRows : List Instr :=
  [.destuff, .discardMalformed, .discardLength, .zoneDecode, .zoneForce, .statusDecode, .nextStatusRich,
   .nextStatusSimple, .updPublishStatus, .updPublishZone, .updStoreStatus, .updStoreZone, .trace]

/-- Every operation a K word selects: "Several operations, at most one per exclusive group, fire in one cycle"
(30 rule R99). -/
def selectedK (word : Bits) : List Instr := kRows.filter fun i => kMatches i word

/-- Every part of DECODE a J word selects (43 rule R162). -/
def selectedJ (word : Bits) : List Instr := jRows.filter fun i => jMatches i word

/-- The row of a list whose pattern fixes the most bits, the first of several, by the pattern lengths `len`. -/
def mostSpecific (len : Instr → Nat) (rows : List Instr) : Option Instr :=
  rows.foldl (init := none) fun best i =>
    match best with
    | none => some i
    | some j => if len j < len i then some i else some j

/-- The ONE row a bare K word stands for where one is asked: the first whose `match` value it is, else the most specific
it selects. -/
def rowOfK (word : Bits) : Option Instr :=
  match kRows.find? fun i => kWord i == word with
  | some i => some i
  | none => mostSpecific (fun i => (kPattern i).length) (selectedK word)

/-- The ONE row a bare J word stands for where one is asked, as `rowOfK`. -/
def rowOfJ (word : Bits) : Option Instr :=
  match jRows.find? fun i => jWord i == word with
  | some i => some i
  | none => mostSpecific (fun i => (jPattern i).length) (selectedJ word)

/-- The number of an instruction's row in spec/opcode_table.json. -/
def rowNumber (i : Instr) : Nat :=
  match i with
  | .reset => 0
  | .errClear => 1
  | .edgeDetect => 2
  | .decode => 3
  | .sample => 4
  | .sampleSuspend => 5
  | .winAppend => 6
  | .ageInc => 7
  | .flagMatch => 8
  | .framePublish => 9
  | .frameDrop => 10
  | .boundaryToggle => 11
  | .syncRecover => 12
  | .quietDetect => 13
  | .cmdAccept => 14
  | .cmdReject => 15
  | .txLoad => 16
  | .txWaitWindow => 17
  | .txWinTimeout => 18
  | .txDrive => 19
  | .txAdvance => 20
  | .txRelease => 21
  | .txStallL => 22
  | .txStallH => 23
  | .txClkTimeoutL => 24
  | .txClkTimeoutH => 25
  | .storeFailLatch => 26
  | .destuff => 27
  | .discardMalformed => 28
  | .discardLength => 29
  | .zoneDecode => 30
  | .zoneForce => 31
  | .statusDecode => 32
  | .nextStatusRich => 33
  | .nextStatusSimple => 34
  | .updPublishStatus => 35
  | .updPublishZone => 36
  | .updStoreStatus => 37
  | .updStoreZone => 38
  | .trace => 39
  | .stuff _ => 40
  | .txBuild _ => 41
  | .statusLoad => 42
  | .flagVRef => 43
  | .rawFrame _ => 44
  | .zoneReport _ _ _ _ _ => 45
  | .statusReport _ _ _ _ _ _ _ _ => 46
  | .cmdFrame _ => 47
  | .inWord _ => 48
  | .statusCode _ => 49
  | .persistedByte _ => 50
  | .cmdResp _ => 51
  | .txResult _ => 52
  | .trcReason _ => 53
  | .errBits _ => 54

/-- The instruction a stream decodes to, if it decodes. -/
def decodedInstr (d : Decoded) : Option Instr :=
  match d with
  | .ok (i, _) => some i
  | .error _ => none

/-- The instruction the decoder reads from a table row's bare word (the host's fixed name). An 8-bit word is a J word,
but for the eight flag bits, which no J word is (43 rule R162: `n72 = 1` makes `disc` and `force` 0); a longer word is a
K word. The row's number is put before the word and the decoder reads both. -/
def decodeTableWord (nbits w : Nat) : Option Instr :=
  if nbits ≤ 8 then
    if numBits 8 w = flagBits then decodedInstr (decode (numBits 8 43 ++ numBits 8 w))
    else (rowOfJ (numBits 8 w)).bind fun i => decodedInstr (decode (numBits 8 (rowNumber i) ++ numBits 8 w))
  else if w < 2 ^ 18 then
    (rowOfK (numBits 18 w)).bind fun i => decodedInstr (decode (numBits 8 (rowNumber i) ++ numBits 18 w))
  else none

/-! ## The encoder -/

/-- The bits of a destuffed Zone Report, oldest first (30 rules R85, R87). -/
def zoneBits (bank : Bool) (gap1 : BitVec 7) (active trig : Byte) (gap2 : BitVec 31) : Bits :=
  flagBits ++ [bank] ++ bitsOf gap1 ++ bitsOf active ++ bitsOf trig ++ bitsOf gap2 ++ [false] ++ flagBits

/-- The bits of a destuffed Status Report, oldest first (30 rules R85, R88). -/
def statusBits (gap1 : Byte) (a b c : Bool) (gap2 : BitVec 5) (t p : Bool) (gap3 : BitVec 37) : Bits :=
  flagBits ++ bitsOf gap1 ++ [a] ++ [b] ++ [c] ++ bitsOf gap2 ++ [t] ++ [p] ++ bitsOf gap3 ++ [true] ++ flagBits

/-- The table's bits of an instruction. -/
def payload (i : Instr) : Bits :=
  match i with
  | .reset => kWord .reset
  | .errClear => kWord .errClear
  | .edgeDetect => kWord .edgeDetect
  | .decode => kWord .decode
  | .sample => kWord .sample
  | .sampleSuspend => kWord .sampleSuspend
  | .winAppend => kWord .winAppend
  | .ageInc => kWord .ageInc
  | .flagMatch => kWord .flagMatch
  | .framePublish => kWord .framePublish
  | .frameDrop => kWord .frameDrop
  | .boundaryToggle => kWord .boundaryToggle
  | .syncRecover => kWord .syncRecover
  | .quietDetect => kWord .quietDetect
  | .cmdAccept => kWord .cmdAccept
  | .cmdReject => kWord .cmdReject
  | .txLoad => kWord .txLoad
  | .txWaitWindow => kWord .txWaitWindow
  | .txWinTimeout => kWord .txWinTimeout
  | .txDrive => kWord .txDrive
  | .txAdvance => kWord .txAdvance
  | .txRelease => kWord .txRelease
  | .txStallL => kWord .txStallL
  | .txStallH => kWord .txStallH
  | .txClkTimeoutL => kWord .txClkTimeoutL
  | .txClkTimeoutH => kWord .txClkTimeoutH
  | .storeFailLatch => kWord .storeFailLatch
  | .destuff => jWord .destuff
  | .discardMalformed => jWord .discardMalformed
  | .discardLength => jWord .discardLength
  | .zoneDecode => jWord .zoneDecode
  | .zoneForce => jWord .zoneForce
  | .statusDecode => jWord .statusDecode
  | .nextStatusRich => jWord .nextStatusRich
  | .nextStatusSimple => jWord .nextStatusSimple
  | .updPublishStatus => jWord .updPublishStatus
  | .updPublishZone => jWord .updPublishZone
  | .updStoreStatus => jWord .updStoreStatus
  | .updStoreZone => jWord .updStoreZone
  | .trace => jWord .trace
  | .stuff x => numBits 8 x.length ++ x
  | .txBuild code => bitsOf code
  | .statusLoad => []
  | .flagVRef => flagBits
  | .rawFrame p => numBits 8 (16 + p.length) ++ flagBits ++ p ++ flagBits
  | .zoneReport k g a t h => zoneBits k g a t h
  | .statusReport g a b c h t p e => statusBits g a b c h t p e
  | .cmdFrame code => Config.vRef.hdr ++ bitsOf code ++ flagBits ++ [false]
  | .inWord f => inBits f
  | .statusCode st => bitsOf (statusNum st)
  | .persistedByte b => bitsOf b
  | .cmdResp r => bitsOf (cmdRespNum r)
  | .txResult r => bitsOf (txResultNum r)
  | .trcReason r => bitsOf (trcReasonNum r)
  | .errBits e => bitsOf e

/-- The encoder: the row number, then the table's bits. -/
def encode (i : Instr) : Bits := numBits 8 (rowNumber i) ++ payload i

end Sys2Proof
end

