-- ==== Sys2Proof/Machine/State.lean ====
section
/-! DEFINITION. The state of CBPE as plain data: every register of 10 rule R38, the static Variant (00 rule R8), the pulse
outputs of the last cycle (10 rule R22), and the model's own fields: the stimulus still to come, the counter of free
draws, the input ports and the nets of the cycle being worked out. -/

namespace Sys2Proof.Machine

/-- `tx_state` (10 rule R34); code 3 does not exist. -/
inductive TxState where
  | idle | waitLow | waitHigh
  deriving DecidableEq, Repr

/-- The exceptions X1..X8 of 60 rule R250. -/
inductive Exc where
  | malformedFrame | unexpectedLength | lostSync | clockTimeout | windowTimeout | busy | storeFail | oversizeFrame
  deriving DecidableEq, Repr

/-- `zone_active_mask` and `zone_trig_mask` (10 rule R22). -/
structure ZoneMasks where
  active : BitVec 16
  trig : BitVec 16
  deriving DecidableEq, Repr

/-- The value outputs of `trc_valid` (43 rule R175); the lengths are the lengths of the two sequences. -/
structure TraceWord where
  reason : TrcReason
  raw : Bits
  dst : Bits
  deriving DecidableEq, Repr

/-- The pulse outputs of one cycle with their value outputs (10 rule R22): `none` where the pulse is 0. -/
structure Pulses where
  cmdResp : CmdResp
  txDone : Option TxResult
  zone : Option ZoneMasks
  st : Option AlarmStatus
  store : Option Byte
  trc : Option TraceWord
  deriving DecidableEq, Repr

/-- The wires of the cycle being worked out: no registers of the spec (10 rule R43), empty between two cycles. -/
structure Nets where
  /-- the wire `fall` of EDGE_DETECT (40 rule R110), K[1] -/
  fall : Bool
  /-- the wire `m` of FLAG_MATCH (41 rule R131), K[11] -/
  hit : Bool
  /-- DECODE fires in this cycle (43 rule R162: "a part fires when DECODE fires and ...") -/
  decoding : Bool
  /-- the sequence `D` of DECODE (43 rule R160) -/
  dst : Bits
  /-- `reason` of DECODE (43 rule R160) -/
  reason : TrcReason
  /-- the new status `s'` (43 rules R162, R169) -/
  nextStatus : AlarmStatus
  /-- the value of the pure function or format just evaluated (STUFF, TX_BUILD, CMD_FRAME, PERSISTED_BYTE) -/
  result : Bits
  deriving DecidableEq, Repr

/-- The whole state. -/
structure State where
  /-- the static Variant: no operation writes it (00 rule R8, 20 rule R73) -/
  variant : Variant
  /-- MODEL: the input words of the coming cycles that are already placed (30 rule R103's stimulus listing) -/
  stim : List (BitVec 24)
  /-- MODEL: how many input words have been drawn freely -/
  drawn : Nat
  /-- `pclk_q` (10 rule R23) -/
  pclkQ : Bool
  /-- `W`, `W[0]` first; `wlen` is its length (10 rule R24) -/
  w : Bits
  /-- `inside` (10 rule R25) -/
  inside : Bool
  /-- `age` (10 rule R26), the value of the signed register of `AGE_W` bits that `ageBits` shows -/
  age : Int
  /-- `txw` (10 rule R27) -/
  txw : Bool
  /-- `fs_valid` (10 rule R30) -/
  fsValid : Bool
  /-- `FS`; `fs_len` is its length (10 rule R30) -/
  fs : Bits
  /-- `status` (10 rule R31) -/
  status : AlarmStatus
  /-- `ERR` (10 rule R32) -/
  err : BitVec 4
  /-- `cp_valid` (10 rule R33) -/
  cpValid : Bool
  /-- `cp_code` (10 rule R33) -/
  cpCode : Byte
  /-- `tx_state` (10 rule R34) -/
  txState : TxState
  /-- `tx_idx` (10 rule R34) -/
  txIdx : Nat
  /-- `TXB`; `tx_len` is its length (10 rule R35) -/
  txb : Bits
  /-- `ct_cnt` (10 rule R36) -/
  ctCnt : Nat
  /-- `wt_cnt` (10 rule R36) -/
  wtCnt : Nat
  /-- `pdata_o` (10 rule R37) -/
  pdataO : Bool
  /-- `pdata_oe` (10 rule R37) -/
  pdataOe : Bool
  /-- MODEL: the levels of the input ports in the cycle being worked out (10 rule R21) -/
  inp : InWord
  /-- MODEL: the wires of the cycle being worked out -/
  net : Nets
  /-- the pulse outputs of the cycle last worked out (10 rule R22) -/
  out : Pulses
  deriving DecidableEq, Repr

/-- The reasons the machine stops with a fault. No exception of CBPE is one (60 rule R250: none "stops, traps or
redirects the block"). -/
inductive Fault where
  /-- A bit address outside a space was read: `MemRead` is "defined only when addr+n ≤ the space's current length" (00 rule
  R14). Raised by FRAME_PUBLISH and TX_DRIVE, only from states no run reaches (40 rule R118). Safe: the model stops where
  the spec says nothing. -/
  | noSuchBit
  deriving DecidableEq, Repr

/-- The reasons the machine refuses to go on. -/
inductive Refusal where
  /-- An arm of `exec` without a meaning. Safe. No arm answers it in this model. -/
  | notModelled (mnemonic : String)
  /-- The Variant is not well formed: "a model should refuse (give no step to) a Variant that is not" (00 rule R10, 93 U10).
  Raised by a cycle (IN, and the wire formats, which are cycles). Safe. -/
  | illFormedVariant
  /-- A state of 93 U3, which "no rule of the spec" covers, in a cycle without reset; U3's treatment is to refuse. Raised by
  a cycle (IN, and the wire formats). Safe. -/
  | outsideSpec
  deriving DecidableEq, Repr

/-- What every meaning answers. -/
abbrev Result := Host.Outcome State Fault Refusal

/-- All input ports low. -/
def InWord.zero : InWord where
  rst := false
  pclk := false
  pdataI := false
  cmdValid := false
  cmdCode := 0
  dbgTraceEn := false
  errClr := false
  storeFail := false
  reserved := false
  statusInit := 0

/-- "In every cycle where no rule pulses it, `p` is 0 and its value outputs are 0" (00 rule R14). -/
def Pulses.zero : Pulses where
  cmdResp := .noRequest
  txDone := none
  zone := none
  st := none
  store := none
  trc := none

/-- No wire of the cycle is set. -/
def Nets.zero : Nets where
  fall := false
  hit := false
  decoding := false
  dst := []
  reason := .zoneReport
  nextStatus := .disarmed
  result := []

/-- The state `S0` of 70 rule R280 with the Variant `v` and the loaded status `st`. -/
def State.afterReset (v : Variant) (st : AlarmStatus) : State where
  variant := v
  stim := []
  drawn := 0
  pclkQ := false
  w := []
  inside := false
  age := 0
  txw := false
  fsValid := false
  fs := []
  status := st
  err := 0
  cpValid := false
  cpCode := 0
  txState := .idle
  txIdx := 0
  txb := []
  ctCnt := 0
  wtCnt := 0
  pdataO := false
  pdataOe := false
  inp := InWord.zero
  net := Nets.zero
  out := Pulses.zero

/-- The machine right after reset: 70 rule R280 with `V_REF` and `status_init = 0x00`, so `status` is Disarmed
(notes/assumptions/1.md and 2.md, DESIGN CHOICE). -/
def State.reset : State := State.afterReset Config.vRef .disarmed

end Sys2Proof.Machine
end

