-- ==== Sys2Proof/Machine/Ops.lean ====
section
/-! DEFINITION. The named operations over the bit memories and the registers (20_memory.md), the pulse primitive of 00 rule
R14, and the taking of an exception (60 rules R250 to R257, R261) with its acknowledge ERR_CLEAR beside it. Every meaning is
written over these. -/

namespace Sys2Proof.Machine

/-! ## Sequencing -/

/-- Go on with `f` from the next state; a stop stays. -/
def andThen (r : Result) (f : State → Result) : Result :=
  match r with
  | .next s => f s
  | .fault e => .fault e
  | .refused e => .refused e

/-- Operations one after another, each seeing the writes of those before it (00 rule R14). -/
def runAll (fs : List (State → Result)) (s : State) : Result :=
  match fs with
  | [] => .next s
  | f :: rest => andThen (f s) (runAll rest)

/-! ## Bit memories (20 rules R60, R61, R66, R68) -/

/-- `MemRead(space, addr, n)` (00 rule R14): nothing where `addr + n` is beyond the space's length. -/
def memRead (space : Bits) (addr n : Nat) : Option Bits :=
  if addr + n ≤ space.length then some ((space.drop addr).take n) else none

/-- `MemRead(space, addr, 1)`: one bit. -/
def memBit (space : Bits) (addr : Nat) : Option Bool := space[addr]?

/-- WIN_APPEND's store (40 rule R113): at capacity the oldest bit is evicted. -/
def appendBit (cap : Nat) (w : Bits) (d : Bool) : Bits :=
  if w.length = cap then w.drop 1 ++ [d] else w ++ [d]

/-- The last `n` bits of a space that holds at least `n` (20 rule R61: `W[wlen-n .. wlen-1]`). -/
def tailBits (w : Bits) (n : Nat) : Bits := w.drop (w.length - n)

/-- The spaces hold no more bits than the spec gives them (20 rule R60). A bit list has one representation, so this is
the canonical form of the three memories. -/
def Memory.wf (s : State) : Bool :=
  decide (s.w.length ≤ s.variant.cap) && decide (s.fs.length ≤ s.variant.cap)
    && decide (s.txb.length ≤ Config.txMax s.variant)

/-! ## Sampler registers -/

/-- EDGE_DETECT's writes (40 rule R110). -/
def setEdge (s : State) : State :=
  { s with net := { s.net with fall := s.pclkQ && !s.inp.pclk }, pclkQ := s.inp.pclk }

/-- WIN_APPEND's write of the sampled bit (40 rule R113). -/
def appendSample (s : State) : State := { s with w := appendBit s.variant.cap s.w s.inp.pdataI }

/-- SAMPLE_SUSPEND's writes (40 rule R116). -/
def suspendSampler (s : State) : State := { s with w := [], txw := false }

/-- The `AGE_W` bits of the register `age` at the value `a`, two's complement (00 rules R9 and R13, 10 rule R26). -/
def ageBits (v : Variant) (a : Int) : BitVec (Config.ageW v) := BitVec.ofInt (Config.ageW v) a

/-- AGE_INC's write (41 rule R130). -/
def incAge (s : State) : State := { s with age := s.age + 1 }

/-- FLAG_MATCH's wire (41 rule R131). -/
def setHit (m : Bool) (s : State) : State := { s with net := { s.net with hit := m } }

/-- The single atomic publish of a frame snapshot (41 rule R132). -/
def publishFrame (f : Bits) (s : State) : State := { s with fs := f, fsValid := true }

/-- BOUNDARY_TOGGLE's writes (41 rule R134). -/
def toggleBoundary (s : State) : State := { s with inside := !s.inside, age := 0 }

/-- QUIET_DETECT's write (41 rule R136). -/
def setTxw (q : Bool) (s : State) : State := { s with txw := q }

/-! ## Decoder and status register -/

/-- DECODE begins: the snapshot is consumed, `D` starts as the raw frame `F` (43 rule R160). -/
def beginDecode (s : State) : State :=
  { s with fsValid := false, net := { s.net with decoding := true, dst := s.fs } }

/-- The destuffed sequence `D` on its wire (43 rule R160). -/
def setDst (d : Bits) (s : State) : State := { s with net := { s.net with dst := d } }

/-- `reason := r` (43 rule R160). -/
def setReason (r : TrcReason) (s : State) : State := { s with net := { s.net with reason := r } }

/-- The new status `s'` on its wire (43 rule R169). -/
def setNext (st : AlarmStatus) (s : State) : State := { s with net := { s.net with nextStatus := st } }

/-- The value of a pure function on its wire. -/
def setResult (b : Bits) (s : State) : State := { s with net := { s.net with result := b } }

/-- `status <- st`. -/
def setStatus (st : AlarmStatus) (s : State) : State := { s with status := st }

/-! ## Pulses (00 rule R14) -/

/-- `pulse cmd_resp(r)`. -/
def pulseCmdResp (r : CmdResp) (s : State) : State := { s with out := { s.out with cmdResp := r } }

/-- `pulse tx_done(tx_result = r)`. -/
def pulseTxDone (r : TxResult) (s : State) : State := { s with out := { s.out with txDone := some r } }

/-- `pulse zone_valid(zone_active_mask, zone_trig_mask)`. -/
def pulseZone (m : ZoneMasks) (s : State) : State := { s with out := { s.out with zone := some m } }

/-- `pulse st_valid(st_value = st)`. -/
def pulseStatus (st : AlarmStatus) (s : State) : State := { s with out := { s.out with st := some st } }

/-- `pulse store_req(store_data = b)`. -/
def pulseStore (b : Byte) (s : State) : State := { s with out := { s.out with store := some b } }

/-- `pulse trc_valid(trc_reason = r, raw = F, dst = D)` (43 rule R175), `F` being the snapshot. -/
def pulseTrace (r : TrcReason) (s : State) : State :=
  { s with out := { s.out with trc := some { reason := r, raw := s.fs, dst := s.net.dst } } }

/-! ## Command register and transmitter -/

/-- CMD_ACCEPT's register writes (45 rule R201). -/
def acceptCommand (code : Byte) (s : State) : State := { s with cpValid := true, cpCode := code, wtCnt := 0 }

/-- TX_LOAD's writes with the sequence `seq` (46 rule R216). -/
def loadTx (seq : Bits) (s : State) : State :=
  { s with txb := seq, txIdx := 0, cpValid := false, txState := .waitLow, ctCnt := 0, wtCnt := 0 }

/-- TX_WAIT_WINDOW's write (46 rule R217). -/
def waitWindow (s : State) : State := { s with wtCnt := s.wtCnt + 1 }

/-- TX_DRIVE's writes with the bit `b` (46 rule R219). -/
def driveLine (b : Bool) (s : State) : State :=
  { s with pdataOe := true, pdataO := b, txState := .waitHigh, ctCnt := 0 }

/-- TX_ADVANCE's writes (46 rule R220). -/
def advanceTx (s : State) : State := { s with txIdx := s.txIdx + 1, txState := .waitLow, ctCnt := 0 }

/-- The line is released and the transmission ends (46 rules R221, R224). -/
def releaseTx (s : State) : State :=
  { s with pdataOe := false, pdataO := false, txState := .idle, txIdx := 0, txb := [], ctCnt := 0 }

/-- TX_STALL's write (46 rule R223). -/
def stallTx (s : State) : State := { s with ctCnt := s.ctCnt + 1 }

/-! ## Exceptions (60_exceptions.md) -/

/-- Sticky bits of `ERR` are set (10 rule R32). -/
def setErr (bits : BitVec 4) (s : State) : State := { s with err := s.err ||| bits }

/-- TAKING AN EXCEPTION: `raise x` performs the entry actions of `x` (60 rules R250 to R257). "There is no trap entry: no
state is saved, no cause register is written apart from the sticky bit" (rule R261). -/
def raise (x : Exc) (s : State) : State :=
  match x with
  | .malformedFrame => setReason .notMultipleOf8 { s with fsValid := false }
  | .unexpectedLength => setReason .not72 { s with fsValid := false }
  | .lostSync => { s with inside := false, age := -1 }
  | .clockTimeout => pulseTxDone .clockTimeout (setErr 0b0001 (releaseTx s))
  | .windowTimeout => pulseTxDone .windowTimeout (setErr 0b0010 { s with cpValid := false, wtCnt := 0 })
  | .busy => pulseCmdResp .busy s
  | .storeFail => setErr 0b0100 s
  | .oversizeFrame => setErr 0b1000 s

/-- The only acknowledge, "the nearest analogue of a return-from-exception" (60 rule R262). -/
def acknowledge (s : State) : State := { s with err := 0 }

/-! ## Cycle boundaries (48 rule R240) -/

/-- A cycle begins: the input ports show `f`, every pulse output is 0, no wire is set. -/
def beginCycle (f : InWord) (s : State) : State :=
  { s with inp := f, out := Pulses.zero, net := Nets.zero }

/-- A cycle ends: the wires and the input levels are gone; the registers and the cycle's pulse outputs stay. -/
def endCycle (s : State) : State := { s with inp := InWord.zero, net := Nets.zero }

/-- RESET's register values but for `status` (70 rule R280). -/
def resetRegisters (s : State) : State :=
  { s with
    pclkQ := false, w := [], inside := false, age := 0, txw := false, fsValid := false, fs := [], err := 0,
    cpValid := false, cpCode := 0, txState := .idle, txIdx := 0, txb := [], ctCnt := 0, wtCnt := 0,
    pdataO := false, pdataOe := false, out := Pulses.zero }

end Sys2Proof.Machine
end

