-- ==== Sys2Proof/Machine/Operands.lean ====
section
/-! DEFINITION. Operand assembly: the fields of the destuffed frame (30 rules R85 to R89), the two Variant maps of the
persisted byte (30 rule R96), the pure functions DESTUFF and STUFF (42 rules R150, R152), the command frame (30 rules R90,
R91; 45 rule R203) and the next-status functions (43 rules R170, R172). -/

namespace Sys2Proof.Machine

/-! ## Stuffing -/

/-- DESTUFF with `run` ones counted so far (42 rule R150). -/
def destuffFrom (s run : Nat) (f : Bits) : Bits :=
  match f with
  | [] => []
  | true :: r => true :: destuffFrom s (run + 1) r
  | false :: r => if run = s then destuffFrom s 0 r else false :: destuffFrom s 0 r

/-- `DESTUFF(S, F)` (42 rule R150). -/
def destuff (s : Nat) (f : Bits) : Bits := destuffFrom s 0 f

/-- STUFF with `run` ones counted so far (42 rule R152). -/
def stuffFrom (s run : Nat) (x : Bits) : Bits :=
  match x with
  | [] => []
  | true :: r => if run + 1 = s then true :: false :: stuffFrom s 0 r else true :: stuffFrom s (run + 1) r
  | false :: r => false :: stuffFrom s 0 r

/-- `STUFF(S, X)` (42 rule R152). -/
def stuff (s : Nat) (x : Bits) : Bits := stuffFrom s 0 x

/-! ## Frame fields -/

/-- `D[i]`; the decoder reads it only where `i` is inside `D`. -/
def frameBit (d : Bits) (i : Nat) : Bool := d.getD i false

/-- The offset of the bank in the masks: 8 when the bank selector is set (30 rule R87). -/
def bankOffset (v : Variant) (d : Bits) : Nat := if frameBit d v.idxBank then 8 else 0

/-- A 16-bit mask whose bit `k + 8*bank` is `D[first + k]` for `k` in 0..7, the other eight being 0 (30 rule R89). -/
def zoneMask (v : Variant) (first : Nat) (d : Bits) : BitVec 16 :=
  vecOf 16 ((List.range 16).map fun z =>
    decide (bankOffset v d ≤ z ∧ z < bankOffset v d + 8) && frameBit d (first + (z - bankOffset v d)))

/-- The two masks of a Zone Report (43 rule R166). -/
def zoneMasks (v : Variant) (d : Bits) : ZoneMasks where
  active := zoneMask v v.idxActive d
  trig := zoneMask v (v.idxActive + 8) d

/-- At least one of `D[IDX_ACTIVE+8 .. IDX_ACTIVE+15]` is 1 (43 rule R162). -/
def anyTriggered (v : Variant) (d : Bits) : Bool :=
  (List.range 8).any fun k => frameBit d (v.idxActive + 8 + k)

/-- The kind of a ZoneEvent (43 rule R167). -/
inductive ZoneKind where
  | activated | triggered
  deriving DecidableEq, Repr

/-- The events of a pulse in the order of 43 rule R167: all Activated by ascending zone, then all Triggered. -/
def zoneEvents (m : ZoneMasks) : List (Nat × ZoneKind) :=
  (((List.range 16).filter fun z => m.active.getLsbD z).map fun z => (z + 1, ZoneKind.activated))
    ++ (((List.range 16).filter fun z => m.trig.getLsbD z).map fun z => (z + 1, ZoneKind.triggered))

/-! ## Persisted byte -/

/-- `LOAD_MAP(v)`: the Variant's value where it lists one, else `min(v, 6)` (30 rule R96). -/
def loadMap (v : Variant) (b : Byte) : AlarmStatus :=
  match v.loadMap.lookup b with
  | some st => st
  | none => (statusOfNum (min b.toNat 6)).getD .armingPartial

/-- `STORE_MAP(s)`: the Variant's value where it lists one, else `zext_8(s)` (30 rule R96). -/
def storeMap (v : Variant) (st : AlarmStatus) : Byte :=
  match v.storeMap.lookup st with
  | some b => b
  | none => (statusNum st).setWidth 8

/-! ## Next status -/

/-- NEXT_STATUS_RICH (43 rule R170), its seven lines in order. -/
def nextStatusRich (cur : AlarmStatus) (a b c t p : Bool) : AlarmStatus :=
  if b && c then (if a then .triggered else .chime)
  else if a && !b then .disarmed
  else if p && cur != .triggered then
    (if a then .armedPartial else if cur == .armedPartial then .armedPartial else .armingPartial)
  else if t && cur != .triggered then
    (if a then .armedTotal else if cur == .armedTotal then .armedTotal else .armingTotal)
  else if cur != .triggered then .disarmed
  else if !a then .disarmed
  else cur

/-- NEXT_STATUS_SIMPLE (43 rule R172). -/
def nextStatusSimple (c t p : Bool) : AlarmStatus :=
  if p then (if c then .armingPartial else .armedPartial)
  else if t then (if c then .armingTotal else .armedTotal)
  else .disarmed

/-! ## Command frame -/

/-- HDR ++ the key code, least significant bit first (30 rule R91, 45 rule R203). -/
def commandBody (v : Variant) (code : Byte) : Bits := v.hdr ++ bitsOf code

/-- The unstuffed command frame (30 rule R90). -/
def commandFrame (v : Variant) (code : Byte) : Bits := commandBody v code ++ v.flag ++ [false]

/-- TX_BUILD (45 rule R203). -/
def txBuild (v : Variant) (code : Byte) : Bits :=
  (if v.stuffEn then stuff v.run (commandBody v code) else commandBody v code) ++ v.flag ++ [false]

end Sys2Proof.Machine
end

