-- ==== Sys2Proof/Machine/Flags.lean ====
section
/-! DEFINITION. The condition words: every bit of K (30 rule R99) and of J (43 rule R162) as a function of the state, the
test whether a row's pattern selects it, and the state ranges of 93 U3. -/

namespace Sys2Proof.Machine

/-- The value of a K bit on the state left by the earlier stages of the cycle (30 rule R99). -/
def kBit (s : State) (b : KBit) : Bool :=
  match b with
  | .rst => s.inp.rst
  | .fall => s.net.fall
  | .txa => s.txState != .idle
  | .txh => s.txState == .waitHigh
  | .pclk => s.inp.pclk
  | .fsv => s.fsValid
  | .cmdv => s.inp.cmdValid
  | .cpv => s.cpValid
  | .txw => s.txw
  | .eclr => s.inp.errClr
  | .sfail => s.inp.storeFail
  | .hit => s.net.hit
  | .ins => s.inside
  | .fits => decide (s.age + s.variant.n ≤ s.w.length)
  | .ovf => decide ((s.variant.cap : Int) < s.age)
  | .last => decide (s.txIdx + 1 = s.txb.length)
  | .cte => decide (s.variant.clkTimeout ≤ s.ctCnt + 1)
  | .wte => decide (s.variant.windowTimeout ≤ s.wtCnt + 1)

/-- The value of a J bit on the wire `D` of the DECODE cycle (43 rule R162). -/
def jBit (s : State) (b : JBit) : Bool :=
  match b with
  | .sten => s.variant.stuffEn
  | .odd => decide (s.net.dst.length % 8 ≠ 0)
  | .n72 => decide (s.net.dst.length ≠ Config.frameLen)
  | .disc => decide (s.net.dst.length = Config.frameLen) && frameBit s.net.dst s.variant.idxDisc
  | .dbg => s.inp.dbgTraceEn
  | .simple => s.variant.decodeMode == .simple
  | .force => decide (s.net.dst.length = Config.frameLen) && s.variant.zoneTrigForces && anyTriggered s.variant s.net.dst
  | .chg => s.net.nextStatus != s.status

/-- The row `i` is selected by the K of the state: `(K & mask) == match` (30 rule R99). -/
def firesK (i : Instr) (s : State) : Bool := (kPattern i).all fun p => kBit s p.1 == p.2

/-- The part `i` of DECODE is selected: DECODE fires and `(J & mask) == match` (43 rule R162). -/
def firesJ (i : Instr) (s : State) : Bool := s.net.decoding && (jPattern i).all fun p => jBit s p.1 == p.2

/-- An operation that K selects fires; one that it does not select changes nothing (30 rule R99: "An operation fires when
`(K & mask) == match`"). -/
def whenK (i : Instr) (s : State) (r : Result) : Result := if firesK i s then r else .next s

/-- As `whenK`, for the parts of DECODE that J selects. -/
def whenJ (i : Instr) (s : State) (r : Result) : Result := if firesJ i s then r else .next s

/-- All K bits, bit 0 first. -/
def kBits : List KBit :=
  [.rst, .fall, .txa, .txh, .pclk, .fsv, .cmdv, .cpv, .txw, .eclr, .sfail, .hit, .ins, .fits, .ovf, .last, .cte, .wte]

/-- All J bits, bit 0 first. -/
def jBits : List JBit := [.sten, .odd, .n72, .disc, .dbg, .simple, .force, .chg]

/-- The 18-bit cycle condition word of a state (30 rule R99). -/
def condWordK (s : State) : BitVec 18 := vecOf 18 (kBits.map (kBit s))

/-- The 8-bit decode condition word of a state (43 rule R162). -/
def condWordJ (s : State) : BitVec 8 := vecOf 8 (jBits.map (jBit s))

/-- The state is none of those 93 U3 lists and the types do not already leave out: `age` in -1..C, `wlen ≤ C`,
`tx_idx < tx_len` while transmitting, `inside = 0` while `txw = 1`. -/
def insideSpec (s : State) : Bool :=
  decide (-1 ≤ s.age) && decide (s.age ≤ s.variant.cap) && decide (s.w.length ≤ s.variant.cap)
    && (s.txState == .idle || decide (s.txIdx < s.txb.length)) && (!s.txw || !s.inside)

end Sys2Proof.Machine
end

