-- ==== Sys2Proof/Machine/Command.lean ====
section
/-! DEFINITION. The command port and the command encoder (45_command_encoder.md): CMD_ACCEPT, CMD_REJECT, TX_BUILD. -/

namespace Sys2Proof.Machine

/-- CMD_ACCEPT (45 rule R201). -/
def execCmdAccept (s : State) : Result :=
  whenK .cmdAccept s (.next (pulseCmdResp .accepted (acceptCommand s.inp.cmdCode s)))

/-- CMD_REJECT (45 rule R202): X6. -/
def execCmdReject (s : State) : Result := whenK .cmdReject s (.next (raise .busy s))

/-- TX_BUILD of `code` (45 rule R203), a pure function. -/
def execTxBuild (code : Byte) (s : State) : Result := .next (setResult (txBuild s.variant code) s)

end Sys2Proof.Machine
end

