-- ==== Sys2Proof/Machine/AlarmState.lean ====
section
/-! DEFINITION. The alarm status register (44_alarm_state.md): STATUS_LOAD, the publish and store parts of STATUS_UPDATE for
both ways into it, STORE_FAIL_LATCH. The parts take the new status `s'` from its wire. -/

namespace Sys2Proof.Machine

/-- STATUS_LOAD (44 rule R185): "every cycle with `rst = 1`". -/
def execStatusLoad (s : State) : Result :=
  if s.inp.rst then .next (setStatus (loadMap s.variant s.inp.statusInit) s) else .next s

/-- `pulse st_valid(st_value = s')` and `status <- s'` (44 rule R186): what every STATUS_UPDATE does. -/
def publishNext (s : State) : State := setStatus s.net.nextStatus (pulseStatus s.net.nextStatus s)

/-- `pulse store_req(store_data = STORE_MAP(s'))` (44 rule R186). -/
def storeNext (s : State) : State := pulseStore (storeMap s.variant s.net.nextStatus) s

/-- STATUS_UPDATE, publish part, from a Status Report (43 rule R162, 44 rule R186). -/
def execUpdPublishStatus (s : State) : Result := whenJ .updPublishStatus s (.next (publishNext s))

/-- STATUS_UPDATE, publish part, from a Zone Report (43 rule R162, 44 rule R186). -/
def execUpdPublishZone (s : State) : Result := whenJ .updPublishZone s (.next (publishNext s))

/-- STATUS_UPDATE, store part, from a Status Report (43 rule R162, 44 rule R186). -/
def execUpdStoreStatus (s : State) : Result := whenJ .updStoreStatus s (.next (storeNext s))

/-- STATUS_UPDATE, store part, from a Zone Report (43 rule R162, 44 rule R186). -/
def execUpdStoreZone (s : State) : Result := whenJ .updStoreZone s (.next (storeNext s))

/-- STORE_FAIL_LATCH (44 rule R189): X7. -/
def execStoreFailLatch (s : State) : Result := whenK .storeFailLatch s (.next (raise .storeFail s))

end Sys2Proof.Machine
end

