-- ==== Sys2Proof/Machine/FrameDecoder.lean ====
section
/-! DEFINITION. The frame decoder (43_frame_decoder.md) and the two pure functions of the stuffing engine as operations
(42_stuffing.md): DESTUFF, STUFF, DISCARD_MALFORMED, DISCARD_LENGTH, ZONE_DECODE, ZONE_FORCE, STATUS_DECODE,
NEXT_STATUS_RICH, NEXT_STATUS_SIMPLE, TRACE, DECODE. In an update the store part stands before the publish part, because
the publish part writes `status` and 44 rule R186 compares "`status` as it was before this update". -/

namespace Sys2Proof.Machine

/-- DESTUFF inside DECODE (42 rule R150): `D` is the destuffed snapshot. -/
def execDestuff (s : State) : Result := whenJ .destuff s (.next (setDst (destuff s.variant.run s.fs) s))

/-- STUFF of `x` (42 rule R152), a pure function. -/
def execStuff (x : Bits) (s : State) : Result := .next (setResult (stuff s.variant.run x) s)

/-- DISCARD_MALFORMED (43 rule R163): X1. -/
def execDiscardMalformed (s : State) : Result := whenJ .discardMalformed s (.next (raise .malformedFrame s))

/-- DISCARD_LENGTH (43 rule R164): X2. -/
def execDiscardLength (s : State) : Result := whenJ .discardLength s (.next (raise .unexpectedLength s))

/-- ZONE_FORCE (43 rule R168): STATUS_UPDATE(Triggered) from a Zone Report. -/
def execZoneForce (s : State) : Result :=
  whenJ .zoneForce s (runAll [execUpdStoreZone, execUpdPublishZone] (setNext .triggered s))

/-- ZONE_DECODE (43 rule R166). -/
def execZoneDecode (s : State) : Result :=
  whenJ .zoneDecode s
    (execZoneForce (pulseZone (zoneMasks s.variant s.net.dst) (setReason .zoneReport s)))

/-- NEXT_STATUS_RICH (43 rule R170), its operands the fields of `D` (43 rule R169). -/
def execNextStatusRich (s : State) : Result :=
  whenJ .nextStatusRich s (.next (setNext
    (nextStatusRich s.status (frameBit s.net.dst s.variant.idxA) (frameBit s.net.dst s.variant.idxB)
      (frameBit s.net.dst s.variant.idxC) (frameBit s.net.dst s.variant.idxTotal)
      (frameBit s.net.dst s.variant.idxPartial)) s))

/-- NEXT_STATUS_SIMPLE (43 rule R172), its operands the fields of `D` (43 rule R169). -/
def execNextStatusSimple (s : State) : Result :=
  whenJ .nextStatusSimple s (.next (setNext
    (nextStatusSimple (frameBit s.net.dst s.variant.idxC) (frameBit s.net.dst s.variant.idxTotal)
      (frameBit s.net.dst s.variant.idxPartial)) s))

/-- STATUS_DECODE (43 rule R169). -/
def execStatusDecode (s : State) : Result :=
  whenJ .statusDecode s
    (runAll [execNextStatusRich, execNextStatusSimple, execUpdStoreStatus, execUpdPublishStatus]
      (setReason .statusReport s))

/-- TRACE (43 rule R175). -/
def execTrace (s : State) : Result := whenJ .trace s (.next (pulseTrace s.net.reason s))

/-- DECODE (43 rule R160): the snapshot is consumed and its parts fire, each under its own selection. -/
def execDecode (s : State) : Result :=
  whenK .decode s (runAll [execDestuff, execDiscardMalformed, execDiscardLength, execZoneDecode, execStatusDecode,
    execTrace] (beginDecode s))

end Sys2Proof.Machine
end

