-- ==== Sys2Proof/Machine/Reset.lean ====
section
/-! DEFINITION. RESET (70 rule R280) and ERR_CLEAR (60 rule R262). -/

namespace Sys2Proof.Machine

/-- RESET (70 rule R280), STATUS_LOAD being its part. -/
def execReset (s : State) : Result := whenK .reset s (execStatusLoad (resetRegisters s))

/-- ERR_CLEAR (60 rule R262). -/
def execErrClear (s : State) : Result := whenK .errClear s (.next (acknowledge s))

end Sys2Proof.Machine
end

