-- ==== Sys2Proof/Machine/Boundary.lean ====
section
/-! DEFINITION. The parts of SAMPLE (40 rules R111, R113; 41_boundary_detector.md): WIN_APPEND, AGE_INC, FLAG_MATCH,
FRAME_PUBLISH, FRAME_DROP, BOUNDARY_TOGGLE, SYNC_RECOVER, QUIET_DETECT. -/

namespace Sys2Proof.Machine

/-- WIN_APPEND (40 rule R113). -/
def execWinAppend (s : State) : Result := whenK .winAppend s (.next (appendSample s))

/-- AGE_INC (41 rule R130). -/
def execAgeInc (s : State) : Result := whenK .ageInc s (.next (incAge s))

/-- The test of FLAG_MATCH: the window's last `N` bits are the flag (41 rule R131). -/
def flagAtTail (v : Variant) (w : Bits) : Bool := decide (v.n ≤ w.length) && tailBits w v.n == v.flag

/-- FLAG_MATCH (41 rule R131): a pure test that produces K[11]. -/
def execFlagMatch (s : State) : Result := whenK .flagMatch s (.next (setHit (flagAtTail s.variant s.w) s))

/-- FRAME_PUBLISH (41 rule R132): the last `L = age + N` bits of the window become the snapshot. -/
def execFramePublish (s : State) : Result :=
  whenK .framePublish s
    (if s.age + s.variant.n < 0 then .fault .noSuchBit
     else
       match memRead s.w (s.w.length - (s.age + s.variant.n).toNat) (s.age + s.variant.n).toNat with
       | some f => .next (publishFrame f s)
       | none => .fault .noSuchBit)

/-- FRAME_DROP (41 rule R133): X8. -/
def execFrameDrop (s : State) : Result := whenK .frameDrop s (.next (raise .oversizeFrame s))

/-- BOUNDARY_TOGGLE (41 rule R134). -/
def execBoundaryToggle (s : State) : Result := whenK .boundaryToggle s (.next (toggleBoundary s))

/-- SYNC_RECOVER (41 rule R135): X3. -/
def execSyncRecover (s : State) : Result := whenK .syncRecover s (.next (raise .lostSync s))

/-- The window's last `Q` bits are all 1 (41 rule R136). -/
def quietAtTail (v : Variant) (w : Bits) : Bool := decide (v.quiet ≤ w.length) && (tailBits w v.quiet).all id

/-- QUIET_DETECT (41 rule R136). -/
def execQuietDetect (s : State) : Result :=
  whenK .quietDetect s (.next (setTxw (!s.inside && quietAtTail s.variant s.w) s))

end Sys2Proof.Machine
end

