-- ==== Sys2Proof/Machine/Sampler.lean ====
section
/-! DEFINITION. The bit sampler and the rolling window (40_sampler_window.md): EDGE_DETECT, SAMPLE, SAMPLE_SUSPEND. The parts
of SAMPLE are in Boundary.lean. -/

namespace Sys2Proof.Machine

/-- EDGE_DETECT (40 rule R110). -/
def execEdgeDetect (s : State) : Result := whenK .edgeDetect s (.next (setEdge s))

/-- SAMPLE (40 rule R111): its parts in their order, each under its own selection. -/
def execSample (s : State) : Result :=
  whenK .sample s (runAll [execWinAppend, execAgeInc, execFlagMatch, execFramePublish, execFrameDrop, execBoundaryToggle,
    execSyncRecover, execQuietDetect] s)

/-- SAMPLE_SUSPEND (40 rule R116). -/
def execSampleSuspend (s : State) : Result := whenK .sampleSuspend s (.next (suspendSampler s))

end Sys2Proof.Machine
end

