-- ==== Sys2Proof/Machine/Transmitter.lean ====
section
/-! DEFINITION. The clock-synchronised command transmitter (46_transmitter.md). -/

namespace Sys2Proof.Machine

/-- TX_LOAD (46 rule R216). -/
def execTxLoad (s : State) : Result := whenK .txLoad s (.next (loadTx (txBuild s.variant s.cpCode) s))

/-- TX_WAIT_WINDOW (46 rule R217). -/
def execTxWaitWindow (s : State) : Result := whenK .txWaitWindow s (.next (waitWindow s))

/-- TX_WIN_TIMEOUT (46 rule R218): X5. -/
def execTxWinTimeout (s : State) : Result := whenK .txWinTimeout s (.next (raise .windowTimeout s))

/-- TX_DRIVE (46 rule R219): bit `tx_idx` of `TXB` goes on the line. -/
def execTxDrive (s : State) : Result :=
  whenK .txDrive s
    (match memBit s.txb s.txIdx with
     | some b => .next (driveLine b s)
     | none => .fault .noSuchBit)

/-- TX_ADVANCE (46 rule R220). -/
def execTxAdvance (s : State) : Result := whenK .txAdvance s (.next (advanceTx s))

/-- TX_RELEASE (46 rule R221). -/
def execTxRelease (s : State) : Result := whenK .txRelease s (.next (pulseTxDone .sent (releaseTx s)))

/-- TX_STALL while waiting for low (46 rule R223). -/
def execTxStallL (s : State) : Result := whenK .txStallL s (.next (stallTx s))

/-- TX_STALL while waiting for high (46 rule R223). -/
def execTxStallH (s : State) : Result := whenK .txStallH s (.next (stallTx s))

/-- TX_CLK_TIMEOUT while waiting for low (46 rule R224): X4. -/
def execTxClkTimeoutL (s : State) : Result := whenK .txClkTimeoutL s (.next (raise .clockTimeout s))

/-- TX_CLK_TIMEOUT while waiting for high (46 rule R224): X4. -/
def execTxClkTimeoutH (s : State) : Result := whenK .txClkTimeoutH s (.next (raise .clockTimeout s))

end Sys2Proof.Machine
end

