-- ==== Sys2Proof/Machine/Cycle.lean ====
section
/-! DEFINITION. The cycle (48_cycle_step.md): the stages of rule R240 in their order, and the input word IN as the operation
"one cycle with these inputs". -/

namespace Sys2Proof.Machine

/-- Stage 1 (48 rule R240). -/
def stage1 (s : State) : Result := runAll [execErrClear, execEdgeDetect] s

/-- Stage 2 (48 rule R240). -/
def stage2 (s : State) : Result := if s.fsValid then execDecode s else .next s

/-- Stage 3 (48 rule R240). -/
def stage3 (s : State) : Result :=
  if s.net.fall then (if s.txState = .idle then execSample s else execSampleSuspend s) else .next s

/-- Stage 4 (48 rule R240). -/
def stage4 (s : State) : Result :=
  if s.inp.cmdValid then (if s.cpValid then execCmdReject s else execCmdAccept s) else .next s

/-- Stage 5: the one transmitter operation of 46 rule R215's table, if any. -/
def stage5 (s : State) : Result :=
  match s.txState with
  | .idle =>
    if s.cpValid then
      (if s.txw then execTxLoad s
       else if s.wtCnt + 1 < s.variant.windowTimeout then execTxWaitWindow s
       else execTxWinTimeout s)
    else .next s
  | .waitLow =>
    if s.inp.pclk then
      (if s.ctCnt + 1 < s.variant.clkTimeout then execTxStallL s else execTxClkTimeoutL s)
    else execTxDrive s
  | .waitHigh =>
    if s.inp.pclk then (if s.txIdx + 1 = s.txb.length then execTxRelease s else execTxAdvance s)
    else (if s.ctCnt + 1 < s.variant.clkTimeout then execTxStallH s else execTxClkTimeoutH s)

/-- Stage 6 (48 rule R240). -/
def stage6 (s : State) : Result := if s.inp.storeFail then execStoreFailLatch s else .next s

/-- The stages of one cycle (48 rule R240), RESET first and alone (rule R241 (i)). A state of 93 U3 has no rule but RESET. -/
def runStages (s : State) : Result :=
  if s.inp.rst then execReset s
  else if insideSpec s then runAll [stage1, stage2, stage3, stage4, stage5, stage6] s
  else .refused .outsideSpec

/-- IN: one cycle of the block with the input word `f` (48 rule R240, 30 rule R98). A Variant that is not well formed gets
no step (00 rule R10). -/
def execInWord (f : InWord) (s : State) : Result :=
  if s.variant.wf then andThen (runStages (beginCycle f s)) fun t => .next (endCycle t)
  else .refused .illFormedVariant

end Sys2Proof.Machine
end

