-- ==== Sys2Proof/Machine/Formats.lean ====
section
/-! DEFINITION. The format rows of the opcode table. A format is no operation; the model gives each the effect the spec gives
to the value that has this format (notes/assumptions/8.md, DESIGN CHOICE): the wire formats FLAG and RAW_FRAME are received
bit by bit (the stimulus macros of 30 rule R104), the destuffed frame formats are read by the decoder, the command frame is
formed, and a port or register code word is put where the spec puts it. -/

namespace Sys2Proof.Machine

/-- `BIT(d)`: two cycles with the panel clock high, then two with it low (30 rule R104). -/
def bitWords (d : Bool) : List InWord :=
  [{ InWord.zero with pclk := true, pdataI := d }, { InWord.zero with pclk := true, pdataI := d },
   { InWord.zero with pdataI := d }, { InWord.zero with pdataI := d }]

/-- `BITS(s)` (30 rule R104). -/
def bitsWords (b : Bits) : List InWord := b.flatMap bitWords

/-- The cycles of a stimulus, one after another. -/
def runWords (ws : List InWord) (s : State) : Result := runAll (ws.map execInWord) s

/-- FLAG (V_REF): the bits 01111110 are received, first bit first (30 rules R82, R104). -/
def execFlagVRef (s : State) : Result := runWords (bitsWords flagBits) s

/-- RAW_FRAME: `FLAG ++ P' ++ FLAG` is received, the flag being the Variant's (30 rules R83, R104). -/
def execRawFrame (p : Bits) (s : State) : Result :=
  runWords (bitsWords (s.variant.flag ++ p ++ s.variant.flag)) s

/-- The destuffed frame `d` stands on the decoder's wire in a DECODE cycle. -/
def presentFrame (d : Bits) (s : State) : State :=
  { s with net := { s.net with decoding := true, dst := d } }

/-- The decoder reads the destuffed frame `d` at the Variant's indices (43 rules R160, R166, R169). -/
def readFrame (d : Bits) (s : State) : Result := runAll [execZoneDecode, execStatusDecode] (presentFrame d s)

/-- ZONE_REPORT (V_REF): the decoder reads this destuffed frame (30 rule R87). -/
def execZoneReport (bank : Bool) (gap1 : BitVec 7) (active trig : Byte) (gap2 : BitVec 31) (s : State) : Result :=
  readFrame (zoneBits bank gap1 active trig gap2) s

/-- STATUS_REPORT (V_REF): the decoder reads this destuffed frame (30 rule R88). -/
def execStatusReport (gap1 : Byte) (a b c : Bool) (gap2 : BitVec 5) (t p : Bool) (gap3 : BitVec 37) (s : State) : Result :=
  readFrame (statusBits gap1 a b c gap2 t p gap3) s

/-- CMD_FRAME (unstuffed): the frame of the key code is formed (30 rules R90, R91). -/
def execCmdFrame (code : Byte) (s : State) : Result := .next (setResult (commandFrame s.variant code) s)

/-- STATUS_CODE: the code is published and the register holds it (30 rule R95, 10 rule R22). -/
def execStatusCode (st : AlarmStatus) (s : State) : Result := .next (setStatus st (pulseStatus st s))

/-- PERSISTED_BYTE: inward `status <- LOAD_MAP(b)`; outward the byte that persists this status (30 rule R96). -/
def execPersistedByte (b : Byte) (s : State) : Result :=
  .next (setResult (bitsOf (storeMap s.variant (loadMap s.variant b))) (setStatus (loadMap s.variant b) s))

/-- CMD_RESP: `pulse cmd_resp(r)` (30 rule R97). -/
def execCmdResp (r : CmdResp) (s : State) : Result := .next (pulseCmdResp r s)

/-- TX_RESULT: `pulse tx_done(tx_result = r)` (30 rule R97). -/
def execTxResult (r : TxResult) (s : State) : Result := .next (pulseTxDone r s)

/-- TRC_REASON: `pulse trc_valid(trc_reason = r)` with the snapshot and the destuffed frame (30 rule R97, 43 rule R175). -/
def execTrcReason (r : TrcReason) (s : State) : Result := .next (pulseTrace r s)

/-- ERR: the sticky bits of `e` are set; a bit already set stays (10 rule R32). -/
def execErrBits (e : BitVec 4) (s : State) : Result := .next (setErr e s)

end Sys2Proof.Machine
end

