-- ==== Sys2Proof/Machine/Dispatch.lean ====
section
/-! DEFINITION. The dispatch: one arm per constructor of Instr, each one call of its meaning. -/

namespace Sys2Proof.Machine

def exec (i : Instr) (s : State) : Host.Outcome State Fault Refusal :=
  match i with
  | .reset => Sys2Proof.Machine.execReset s
  | .errClear => Sys2Proof.Machine.execErrClear s
  | .edgeDetect => Sys2Proof.Machine.execEdgeDetect s
  | .decode => Sys2Proof.Machine.execDecode s
  | .sample => Sys2Proof.Machine.execSample s
  | .sampleSuspend => Sys2Proof.Machine.execSampleSuspend s
  | .winAppend => Sys2Proof.Machine.execWinAppend s
  | .ageInc => Sys2Proof.Machine.execAgeInc s
  | .flagMatch => Sys2Proof.Machine.execFlagMatch s
  | .framePublish => Sys2Proof.Machine.execFramePublish s
  | .frameDrop => Sys2Proof.Machine.execFrameDrop s
  | .boundaryToggle => Sys2Proof.Machine.execBoundaryToggle s
  | .syncRecover => Sys2Proof.Machine.execSyncRecover s
  | .quietDetect => Sys2Proof.Machine.execQuietDetect s
  | .cmdAccept => Sys2Proof.Machine.execCmdAccept s
  | .cmdReject => Sys2Proof.Machine.execCmdReject s
  | .txLoad => Sys2Proof.Machine.execTxLoad s
  | .txWaitWindow => Sys2Proof.Machine.execTxWaitWindow s
  | .txWinTimeout => Sys2Proof.Machine.execTxWinTimeout s
  | .txDrive => Sys2Proof.Machine.execTxDrive s
  | .txAdvance => Sys2Proof.Machine.execTxAdvance s
  | .txRelease => Sys2Proof.Machine.execTxRelease s
  | .txStallL => Sys2Proof.Machine.execTxStallL s
  | .txStallH => Sys2Proof.Machine.execTxStallH s
  | .txClkTimeoutL => Sys2Proof.Machine.execTxClkTimeoutL s
  | .txClkTimeoutH => Sys2Proof.Machine.execTxClkTimeoutH s
  | .storeFailLatch => Sys2Proof.Machine.execStoreFailLatch s
  | .destuff => Sys2Proof.Machine.execDestuff s
  | .discardMalformed => Sys2Proof.Machine.execDiscardMalformed s
  | .discardLength => Sys2Proof.Machine.execDiscardLength s
  | .zoneDecode => Sys2Proof.Machine.execZoneDecode s
  | .zoneForce => Sys2Proof.Machine.execZoneForce s
  | .statusDecode => Sys2Proof.Machine.execStatusDecode s
  | .nextStatusRich => Sys2Proof.Machine.execNextStatusRich s
  | .nextStatusSimple => Sys2Proof.Machine.execNextStatusSimple s
  | .updPublishStatus => Sys2Proof.Machine.execUpdPublishStatus s
  | .updPublishZone => Sys2Proof.Machine.execUpdPublishZone s
  | .updStoreStatus => Sys2Proof.Machine.execUpdStoreStatus s
  | .updStoreZone => Sys2Proof.Machine.execUpdStoreZone s
  | .trace => Sys2Proof.Machine.execTrace s
  | .stuff x => Sys2Proof.Machine.execStuff x s
  | .txBuild code => Sys2Proof.Machine.execTxBuild code s
  | .statusLoad => Sys2Proof.Machine.execStatusLoad s
  | .flagVRef => Sys2Proof.Machine.execFlagVRef s
  | .rawFrame p => Sys2Proof.Machine.execRawFrame p s
  | .zoneReport k g a t h => Sys2Proof.Machine.execZoneReport k g a t h s
  | .statusReport g a b c h t p e => Sys2Proof.Machine.execStatusReport g a b c h t p e s
  | .cmdFrame code => Sys2Proof.Machine.execCmdFrame code s
  | .inWord f => Sys2Proof.Machine.execInWord f s
  | .statusCode st => Sys2Proof.Machine.execStatusCode st s
  | .persistedByte b => Sys2Proof.Machine.execPersistedByte b s
  | .cmdResp r => Sys2Proof.Machine.execCmdResp r s
  | .txResult r => Sys2Proof.Machine.execTxResult r s
  | .trcReason r => Sys2Proof.Machine.execTrcReason r s
  | .errBits e => Sys2Proof.Machine.execErrBits e s

end Sys2Proof.Machine
end

