-- ==== Sys2Proof/Machine/Fetch.lean ====
section
/-! DEFINITION. How a step comes by its input word, and how an operation of the opcode table is placed so that the next step
runs it. CBPE has no program (30 rule R103: "nothing programs it"): an operation runs in the cycle whose condition word selects
it. Placing a row therefore makes the registers, the Variant or the next input word show the bits its pattern asks for
(notes/assumptions/6.md, DESIGN CHOICE). -/

namespace Sys2Proof.Machine

/-- The next input word, decoded, and the state without it: the first of the placed stimulus, else a free draw
(00 rule R18; notes/assumptions/5.md). -/
def fetch (s : State) : Instr × State :=
  match s.stim with
  | w :: rest => (decodeIn w, { s with stim := rest })
  | [] => (decodeIn (Config.freeIn s.drawn), { s with drawn := s.drawn + 1 })

/-- The next cycle's input word is `f`. -/
def placeIn (f : InWord) (s : State) : State := { s with stim := inWordOf f :: s.stim }

/-- No transmission is in flight and the next cycle has a falling edge. -/
def readySample (s : State) : State :=
  { releaseTx s with pclkQ := true }

/-- The next bit `last` completes the flag in a window that holds its other bits. -/
def readyFlag (s : State) : State :=
  placeIn { InWord.zero with pdataI := s.variant.flag.getLastD false }
    { readySample s with w := s.variant.flag.dropLast, txw := false }

/-- A transmission of the key code in `cp_code` is in flight in the state `st`, at bit `idx`, with `ct_cnt = ct`. -/
def readyTx (st : TxState) (idx ct : Nat) (s : State) : State :=
  { s with txb := txBuild s.variant s.cpCode, txState := st, txIdx := idx, ctCnt := ct, inside := false, txw := false,
           pclkQ := false }

/-- The index of the last bit of the sequence `readyTx` loads. -/
def lastIdx (s : State) : Nat := (txBuild s.variant s.cpCode).length - 1

/-- A command is pending, nothing is in flight and there is no quiet window; it has waited `wt` cycles. -/
def readyPending (wt : Nat) (s : State) : State :=
  { releaseTx s with cpValid := true, txw := false, wtCnt := wt, pclkQ := false }

/-- A command is pending in a quiet window. -/
def readyLoad (s : State) : State :=
  { releaseTx s with
    cpValid := true, txw := true, inside := false, w := List.replicate s.variant.quiet true, pclkQ := false }

/-- A snapshot is held whose destuffed sequence is `d`. -/
def readyFrame (d : Bits) (s : State) : State :=
  { s with fsValid := true, fs := if s.variant.stuffEn then stuff s.variant.run d else d }

/-- 72 bits, 1 exactly where `p` holds. -/
def frameWhere (p : Nat → Bool) : Bits := (List.range Config.frameLen).map p

/-- A frame with discriminant 1 and every other bit 0. -/
def plainStatus (v : Variant) : Bits := frameWhere fun i => i == v.idxDisc

/-- A frame with discriminant 0 and every triggered bit 1 that is not the discriminant. -/
def plainTriggered (v : Variant) : Bits :=
  frameWhere fun i => decide (v.idxActive + 8 ≤ i ∧ i < v.idxActive + 16) && i != v.idxDisc

/-- The Variant with zone-trigger forcing. -/
def withForcing (s : State) : State := { s with variant := { s.variant with zoneTrigForces := true } }

/-- The Variant with stuffing on or off. -/
def withStuffing (on : Bool) (s : State) : State := { s with variant := { s.variant with stuffEn := on } }

/-- The Variant with a decode mode. -/
def withMode (m : DecodeMode) (s : State) : State := { s with variant := { s.variant with decodeMode := m } }

/-- The state in which the next step runs the operation `i`: the condition bits its pattern asks for hold. A function row
is placed with the operation that evaluates it, a format row with a cycle that carries it; the wire formats place all
their cycles, of which the next step runs the first. -/
def place (i : Instr) (s : State) : State :=
  match i with
  | .reset => placeIn { InWord.zero with rst := true } s
  | .errClear => placeIn { InWord.zero with errClr := true } s
  | .edgeDetect => placeIn InWord.zero s
  | .decode => placeIn InWord.zero { s with fsValid := true }
  | .sample => placeIn InWord.zero (readySample s)
  | .sampleSuspend => placeIn InWord.zero { readyTx .waitLow 0 0 s with pclkQ := true }
  | .winAppend => placeIn InWord.zero (readySample s)
  | .ageInc => placeIn InWord.zero (readySample s)
  | .flagMatch => placeIn InWord.zero (readySample s)
  | .framePublish => { readyFlag s with inside := true, age := -1 }
  | .frameDrop => { readyFlag s with inside := true, age := s.variant.cap }
  | .boundaryToggle => readyFlag s
  | .syncRecover =>
    placeIn { InWord.zero with pdataI := !s.variant.flag.getLastD false }
      { readySample s with w := [], txw := false, age := s.variant.cap }
  | .quietDetect => placeIn InWord.zero (readySample s)
  | .cmdAccept => placeIn { InWord.zero with cmdValid := true } { s with cpValid := false }
  | .cmdReject => placeIn { InWord.zero with cmdValid := true } { s with cpValid := true }
  | .txLoad => placeIn InWord.zero (readyLoad s)
  | .txWaitWindow => placeIn InWord.zero (readyPending 0 s)
  | .txWinTimeout => placeIn InWord.zero (readyPending (s.variant.windowTimeout - 1) s)
  | .txDrive => placeIn InWord.zero (readyTx .waitLow 0 0 s)
  | .txAdvance => placeIn { InWord.zero with pclk := true } (readyTx .waitHigh 0 0 s)
  | .txRelease => placeIn { InWord.zero with pclk := true } (readyTx .waitHigh (lastIdx s) 0 s)
  | .txStallL => placeIn { InWord.zero with pclk := true } (readyTx .waitLow 0 0 s)
  | .txStallH => placeIn InWord.zero (readyTx .waitHigh 0 0 s)
  | .txClkTimeoutL => placeIn { InWord.zero with pclk := true } (readyTx .waitLow 0 (s.variant.clkTimeout - 1) s)
  | .txClkTimeoutH => placeIn InWord.zero (readyTx .waitHigh 0 (s.variant.clkTimeout - 1) s)
  | .storeFailLatch => placeIn { InWord.zero with storeFail := true } s
  | .destuff => placeIn InWord.zero { withStuffing true s with fsValid := true }
  | .discardMalformed => placeIn InWord.zero (readyFrame [false] s)
  | .discardLength => placeIn InWord.zero (readyFrame [] s)
  | .zoneDecode => placeIn InWord.zero (readyFrame (frameWhere fun _ => false) s)
  | .zoneForce => placeIn InWord.zero (readyFrame (plainTriggered s.variant) (withForcing s))
  | .statusDecode => placeIn InWord.zero (readyFrame (plainStatus s.variant) s)
  | .nextStatusRich => placeIn InWord.zero (readyFrame (plainStatus s.variant) (withMode .rich s))
  | .nextStatusSimple => placeIn InWord.zero (readyFrame (plainStatus s.variant) (withMode .simple s))
  | .updPublishStatus => placeIn InWord.zero (readyFrame (plainStatus s.variant) s)
  | .updPublishZone => placeIn InWord.zero (readyFrame (plainTriggered s.variant) (withForcing s))
  | .updStoreStatus => placeIn InWord.zero (readyFrame (plainStatus s.variant) { s with status := .armingTotal })
  | .updStoreZone => placeIn InWord.zero (readyFrame (plainTriggered s.variant) { withForcing s with status := .disarmed })
  | .trace => placeIn { InWord.zero with dbgTraceEn := true } { s with fsValid := true }
  | .stuff _ => placeIn InWord.zero (readyLoad (withStuffing true s))
  | .txBuild code => placeIn InWord.zero { readyLoad s with cpCode := code }
  | .statusLoad => placeIn { InWord.zero with rst := true } s
  | .flagVRef => { s with stim := (bitsWords flagBits).map inWordOf ++ s.stim }
  | .rawFrame p => { s with stim := (bitsWords (s.variant.flag ++ p ++ s.variant.flag)).map inWordOf ++ s.stim }
  | .zoneReport k g a t h => placeIn InWord.zero (readyFrame (zoneBits k g a t h) s)
  | .statusReport g a b c h t p e => placeIn InWord.zero (readyFrame (statusBits g a b c h t p e) s)
  | .cmdFrame code => placeIn InWord.zero { readyLoad (withStuffing false s) with cpCode := code }
  | .inWord f => placeIn f s
  | .statusCode st => placeIn { InWord.zero with rst := true, statusInit := storeMap s.variant st } s
  | .persistedByte b => placeIn { InWord.zero with rst := true, statusInit := b } s
  | .cmdResp .noRequest => placeIn InWord.zero s
  | .cmdResp .accepted => placeIn { InWord.zero with cmdValid := true } { s with cpValid := false }
  | .cmdResp .busy => placeIn { InWord.zero with cmdValid := true } { s with cpValid := true }
  | .txResult .sent => placeIn { InWord.zero with pclk := true } (readyTx .waitHigh (lastIdx s) 0 s)
  | .txResult .clockTimeout => placeIn InWord.zero (readyTx .waitHigh 0 (s.variant.clkTimeout - 1) s)
  | .txResult .windowTimeout => placeIn InWord.zero (readyPending (s.variant.windowTimeout - 1) s)
  | .trcReason .zoneReport =>
    placeIn { InWord.zero with dbgTraceEn := true } (readyFrame (frameWhere fun _ => false) s)
  | .trcReason .statusReport => placeIn { InWord.zero with dbgTraceEn := true } (readyFrame (plainStatus s.variant) s)
  | .trcReason .notMultipleOf8 => placeIn { InWord.zero with dbgTraceEn := true } (readyFrame [false] s)
  | .trcReason .not72 => placeIn { InWord.zero with dbgTraceEn := true } (readyFrame [] s)
  | .errBits e => placeIn { InWord.zero with storeFail := e.getLsbD 2 } s

end Sys2Proof.Machine
end

