-- ==== Sys2Proof/Machine/Step.lean ====
section
/-! DEFINITION. The step: one cycle of `clk` (48 rule R240), its input word taken from the placed stimulus or drawn freely. -/

namespace Sys2Proof.Machine

/-- One cycle: fetch the input word and run it. -/
def step (s : State) : Host.Outcome State Fault Refusal := exec (fetch s).1 (fetch s).2

/-- The state with the table row of the bare word placed for the next step (notes/assumptions/6.md). -/
def State.withFetchWord (s : State) (nbits w : Nat) : State :=
  match decodeTableWord nbits w with
  | some i => place i s
  | none => s

end Sys2Proof.Machine
end

