-- ==== Sys2Proof/Machine/Ports.lean ====
section
/-! DEFINITION. The output ports of 10 rule R22 as functions of the state: the level outputs show registers, the pulse outputs
show the pulses of the cycle last worked out, with value outputs 0 where the pulse is 0 (00 rule R14). -/

namespace Sys2Proof.Machine

/-- The level outputs (10 rule R22). -/
structure Levels where
  pdataO : Bool
  pdataOe : Bool
  insideFrame : Bool
  txWindow : Bool
  txBusy : Bool
  cmdPending : Bool
  statusQ : BitVec 3
  err : BitVec 4
  deriving DecidableEq, Repr

/-- The pulse outputs and their value outputs as port words (10 rule R22). A trace sequence is `C` bits, 0 beyond its length
(43 rule R175). -/
structure PulsePorts where
  cmdResp : BitVec 2
  txDone : Bool
  txResult : BitVec 2
  zoneValid : Bool
  zoneActiveMask : BitVec 16
  zoneTrigMask : BitVec 16
  stValid : Bool
  stValue : BitVec 3
  storeReq : Bool
  storeData : Byte
  trcValid : Bool
  trcReason : BitVec 2
  trcRawLen : Nat
  trcRaw : Bits
  trcDstLen : Nat
  trcDst : Bits
  deriving DecidableEq, Repr

/-- The level outputs of the cycle that starts in the state (10 rule R22, 48 rule R240). -/
def levels (s : State) : Levels where
  pdataO := s.pdataO
  pdataOe := s.pdataOe
  insideFrame := s.inside
  txWindow := s.txw
  txBusy := s.txState != .idle
  cmdPending := s.cpValid
  statusQ := statusNum s.status
  err := s.err

/-- A sequence on a port of `cap` bits: bit `i` is `b[i]`, 0 beyond the sequence (43 rule R175). -/
def portBits (cap : Nat) (b : Bits) : Bits := (List.range cap).map fun i => b.getD i false

/-- The pulse outputs of the cycle that left the state (10 rule R22). -/
def pulsePorts (s : State) : PulsePorts where
  cmdResp := cmdRespNum s.out.cmdResp
  txDone := s.out.txDone.isSome
  txResult := (s.out.txDone.map txResultNum).getD 0
  zoneValid := s.out.zone.isSome
  zoneActiveMask := (s.out.zone.map ZoneMasks.active).getD 0
  zoneTrigMask := (s.out.zone.map ZoneMasks.trig).getD 0
  stValid := s.out.st.isSome
  stValue := (s.out.st.map statusNum).getD 0
  storeReq := s.out.store.isSome
  storeData := s.out.store.getD 0
  trcValid := s.out.trc.isSome
  trcReason := (s.out.trc.map fun t => trcReasonNum t.reason).getD 0
  trcRawLen := (s.out.trc.map fun t => t.raw.length).getD 0
  trcRaw := portBits s.variant.cap ((s.out.trc.map TraceWord.raw).getD [])
  trcDstLen := (s.out.trc.map fun t => t.dst.length).getD 0
  trcDst := portBits s.variant.cap ((s.out.trc.map TraceWord.dst).getD [])

end Sys2Proof.Machine
end

