-- ==== Sys2Proof/Safety.lean ====
section
/-! DEFINITION. What counts as a good state of CBPE and the terms the statements use: the invariants of 10 rules R28, R30,
R34 to R37 and 46 rule R226, the selection of operations by the condition word (30 rule R99), runs of samples (70 rule
R290) and the relation between input words that differ only in ignored ports (93 U12). -/

namespace Sys2Proof.Machine

/-! ## Invariants between cycles -/

/-- The sampler's invariants (10 rule R28, its four parts). -/
structure SamplerInv (s : State) : Prop where
  window : s.w.length ≤ s.variant.cap
  ageLow : -1 ≤ s.age
  ageHigh : s.age ≤ s.variant.cap
  outside : s.txw = true → s.inside = false
  quiet : s.txw = true → quietAtTail s.variant s.w = true

/-- What the receiver knows of a frame: while it is inside one, the opening flag lies `age` bits before the window's end as
long as it is still in the window (30 rule R83, 41 rule R132); a held snapshot fits the window, begins and ends with the
flag, and the receiver has just left the frame (20 rule R72, 30 rule R83). -/
structure FrameInv (s : State) : Prop where
  counted : s.inside = true → 0 ≤ s.age
  opened : s.inside = true → s.age + s.variant.n ≤ s.w.length →
    (tailBits s.w (s.age + s.variant.n).toNat).take s.variant.n = s.variant.flag
  fits : s.fs.length ≤ s.variant.cap
  closed : s.fsValid = true → s.inside = false ∧ s.age = 0
  flags : s.fsValid = true →
    s.variant.n < s.fs.length ∧ s.fs.take s.variant.n = s.variant.flag ∧ tailBits s.fs s.variant.n = s.variant.flag

/-- The transmitter's invariants (10 rules R34 to R37, 40 rule R116 corner (iii), 46 rule R226 (i) and (ii)). -/
structure TransmitterInv (s : State) : Prop where
  sending : s.txState ≠ .idle → s.txIdx < s.txb.length ∧ ∃ code : Byte, s.txb = txBuild s.variant code
  suspended : s.txState ≠ .idle → s.inside = false
  resting : s.txState = .idle → s.txb = [] ∧ s.txIdx = 0 ∧ s.ctCnt = 0 ∧ s.pdataOe = false
  waitsLow : s.txState = .waitLow → (s.pdataOe = true ↔ 0 < s.txIdx)
  onLine : s.txState = .waitHigh → s.pdataOe = true ∧ s.txb[s.txIdx]? = some s.pdataO
  released : s.pdataOe = false → s.pdataO = false
  clock : s.ctCnt < s.variant.clkTimeout
  waiting : s.wtCnt < s.variant.windowTimeout

/-- A good state between two cycles. -/
structure Inv (s : State) : Prop where
  variantOk : s.variant.wf = true
  sampler : SamplerInv s
  frame : FrameInv s
  transmitter : TransmitterInv s

/-! ## Selection by the condition word -/

/-- The exclusive groups of stages 1 to 6, in stage order (30 rule R99, 48 rule R240). -/
def stageGroups : List (List Instr) :=
  [[.errClear], [.edgeDetect], [.decode], [.sample, .sampleSuspend], [.cmdAccept, .cmdReject],
   [.txLoad, .txWaitWindow, .txWinTimeout, .txDrive, .txAdvance, .txRelease, .txStallL, .txStallH, .txClkTimeoutL,
    .txClkTimeoutH],
   [.storeFailLatch]]

/-- The operation of a group that the condition word of the state selects fires; none does where none is selected. -/
def fireGroup (group : List Instr) (s : State) : Result :=
  match group.find? fun i => firesK i s with
  | some i => exec i s
  | none => .next s

/-! ## Runs -/

/-- `k` steps. -/
def runSteps (k : Nat) (s : State) : Result :=
  match k with
  | 0 => .next s
  | k + 1 => andThen (step s) (runSteps k)

/-- The state in which a falling edge has just been seen and the data line shows `d`. -/
def atSample (d : Bool) (s : State) : State :=
  { s with inp := { InWord.zero with pdataI := d }, net := { Nets.zero with fall := true } }

/-- One sample `d` that completes no flag; nothing where it completes one. -/
def quietSample (d : Bool) (s : State) : Option State :=
  match exec .sample (atSample d s) with
  | .next t => if t.net.hit then none else some t
  | _ => none

/-- Consecutive samples none of which completes a flag. -/
def quietSamples (ds : Bits) (s : State) : Option State :=
  match ds with
  | [] => some s
  | d :: rest => (quietSample d s).bind (quietSamples rest)

/-! ## The next-status table -/

/-- The table of 43 rule R171: for the five bits of a Status Report, the next status of Disarmed, ArmedTotal, ArmedPartial,
Triggered, Chime, ArmingTotal and ArmingPartial, in this order. -/
def richTable (a b c t p : Bool) : List AlarmStatus :=
  let all (x : AlarmStatus) := [x, x, x, x, x, x, x]
  let butTriggered (x trg : AlarmStatus) := [x, x, x, trg, x, x, x]
  let partialWait : List AlarmStatus :=
    [.armingPartial, .armingPartial, .armedPartial, .disarmed, .armingPartial, .armingPartial, .armingPartial]
  let totalWait : List AlarmStatus :=
    [.armingTotal, .armedTotal, .armingTotal, .disarmed, .armingTotal, .armingTotal, .armingTotal]
  match a, b, c, t, p with
  | false, true, true, _, _ => all .chime
  | true, false, _, _, _ => all .disarmed
  | true, true, true, _, _ => all .triggered
  | true, true, false, false, false => butTriggered .disarmed .triggered
  | true, true, false, _, true => butTriggered .armedPartial .triggered
  | true, true, false, true, false => butTriggered .armedTotal .triggered
  | false, _, _, false, false => all .disarmed
  | false, _, _, _, true => partialWait
  | false, _, _, true, false => totalWait

/-! ## Ignored inputs -/

/-- The two input words differ only in ports that the cycle from `s` ignores (93 U12). -/
def sameInputs (s : State) (f g : InWord) : Prop :=
  f.rst = g.rst ∧ (f.rst = true → f.statusInit = g.statusInit)
    ∧ (f.rst = false →
        f.pclk = g.pclk ∧ f.cmdValid = g.cmdValid ∧ f.dbgTraceEn = g.dbgTraceEn ∧ f.errClr = g.errClr
          ∧ f.storeFail = g.storeFail ∧ (f.cmdValid = true → f.cmdCode = g.cmdCode)
          ∧ (s.pclkQ = true → f.pclk = false → s.txState = .idle → f.pdataI = g.pdataI))

end Sys2Proof.Machine
end

