-- ==== Sys2Proof/Certificates/Slice0/Obligations.lean ====
section
/-! DEFINITION. The statements for the provers. Each says which numbered rule of spec/ it formalises, or what it rests on. A
frame is said by the whole next state: `{ s with ... }` changes the fields named and nothing else, so every other register,
every memory bit, every pulse and every field of the model stays. -/

section Statements

open Sys2Proof Sys2Proof.Machine

/-! ## Encodings -/

/-- Decoding the encoding of a well-formed instruction gives the instruction and leaves the bits after it. The framing by
row numbers is the model's choice (notes/assumptions/7.md); the bits of each row are those of the rules cited. -/
def Obligations.DecodeEncode : Prop :=
  ∀ (i : Instr) (rest : Bits), i.wf = true → decode (encode i ++ rest) = .ok (i, rest)

/-- 30 rule R98: the place of every field of the input word, and no bit of it is lost. -/
def Obligations.InputWordLayout : Prop :=
  (∀ f : InWord,
    (inWordOf f).getLsbD 0 = f.rst ∧ (inWordOf f).getLsbD 1 = f.pclk ∧ (inWordOf f).getLsbD 2 = f.pdataI
      ∧ (inWordOf f).getLsbD 3 = f.cmdValid ∧ (inWordOf f).extractLsb' 4 8 = f.cmdCode
      ∧ (inWordOf f).getLsbD 12 = f.dbgTraceEn ∧ (inWordOf f).getLsbD 13 = f.errClr
      ∧ (inWordOf f).getLsbD 14 = f.storeFail ∧ (inWordOf f).getLsbD 15 = f.reserved
      ∧ (inWordOf f).extractLsb' 16 8 = f.statusInit)
  ∧ (∀ w : BitVec 24, inWordOf (inFields w) = w) ∧ ∀ f : InWord, inFields (inWordOf f) = f

/-- Six words of the table of 30 rule R99, two of 43 rule R162, the flag of 30 rule R82 and two examples of 30 rule R98 decode
to the operations they stand for, and the codes that 30 rules R95, R97 and R101 say are never produced are refused. Which row a
bare word names (`decodeTableWord`) and the row numbers 49, 51 and 52 before the refused codes are the model's choice
(notes/assumptions/7.md). -/
def Obligations.SpecWordsDecode : Prop :=
  decodeTableWord 24 0x000001 = some .reset ∧ decodeTableWord 24 0x003802 = some .framePublish
    ∧ decodeTableWord 24 0x000006 = some .sampleSuspend ∧ decodeTableWord 24 0x000004 = some .txDrive
    ∧ decodeTableWord 24 0x01000c = some .txClkTimeoutH ∧ decodeTableWord 24 0x000200 = some .errClear
    ∧ decodeTableWord 8 0x04 = some .discardLength ∧ decodeTableWord 8 0xc0 = some .updStoreZone
    ∧ decodeTableWord 8 0x7e = some .flagVRef
    ∧ decodeIn 0x000a6e = .inWord { InWord.zero with pclk := true, pdataI := true, cmdValid := true, cmdCode := 0xa6 }
    ∧ decodeIn 0xff0005 = .inWord { InWord.zero with rst := true, pdataI := true, statusInit := 0xff }
    ∧ (∀ rest : Bits, decode (numBits 8 49 ++ [true, true, true] ++ rest) = .error .reservedCode)
    ∧ (∀ rest : Bits, decode (numBits 8 51 ++ [true, true] ++ rest) = .error .reservedCode)
    ∧ ∀ rest : Bits, decode (numBits 8 52 ++ [true, true] ++ rest) = .error .reservedCode

/-! ## The cycle -/

/-- One step runs the input word at the head of the placed stimulus, or a free one where none is placed (00 rule R18, 48
rule R240; that the stimulus is a list in the state is the model's choice, notes/assumptions/5.md). -/
def Obligations.StepRunsDecodedWord : Prop :=
  (∀ (s : State) (w : BitVec 24) (rest : List (BitVec 24)), s.stim = w :: rest →
    step s = exec (decodeIn w) { s with stim := rest })
  ∧ ∀ s : State, s.stim = [] →
    step s = exec (decodeIn (Config.freeIn s.drawn)) { s with drawn := s.drawn + 1 }

/-- The stage listing of 48 rule R240 is the selection by the condition word of 30 rule R99: with `rst = 1` RESET is the only
operation selected and the cycle is RESET's; with `rst = 0`, from every state that 93 U3 does not exclude, the cycle answers
the state that the operations selected in each exclusive group leave, group after group. -/
def Obligations.CycleIsTheTable : Prop :=
  ∀ (s : State) (f : InWord), s.variant.wf = true →
    (f.rst = true →
      (∀ i ∈ kRows, firesK i (beginCycle f s) = true → i = .reset)
      ∧ ∃ t, exec .reset (beginCycle f s) = .next t ∧ exec (.inWord f) s = .next (endCycle t))
    ∧ (f.rst = false → insideSpec s = true →
      ∃ t, runAll (stageGroups.map fireGroup) (beginCycle f s) = .next t ∧ exec (.inWord f) s = .next (endCycle t))

/-- At most one operation of each exclusive group is selected (30 rule R99), and in stage 5 exactly one is, or none where
the transmitter is idle with nothing pending (46 rule R215). FRAME_PUBLISH and FRAME_DROP, BOUNDARY_TOGGLE and SYNC_RECOVER
exclude each other (60 rule R260). -/
def Obligations.ExclusiveGroups : Prop :=
  ∀ s : State,
    (∀ g ∈ stageGroups, (g.filter fun i => firesK i s).length ≤ 1)
    ∧ (s.inp.rst = false →
        (([Instr.txLoad, .txWaitWindow, .txWinTimeout, .txDrive, .txAdvance, .txRelease, .txStallL, .txStallH,
            .txClkTimeoutL, .txClkTimeoutH].filter fun i => firesK i s) = []
          ↔ s.txState = .idle ∧ s.cpValid = false))
    ∧ ¬(firesK .framePublish s = true ∧ firesK .frameDrop s = true)
    ∧ ¬(firesK .boundaryToggle s = true ∧ firesK .syncRecover s = true)

/-- A cycle is refused exactly for a Variant that is not well formed (00 rule R10) and, without reset, from a state of 93 U3
(the refusals are the model's way to "give no step", notes/assumptions/9.md and 10.md). -/
def Obligations.CycleRefusals : Prop :=
  ∀ (s : State) (f : InWord),
    (s.variant.wf = false → exec (.inWord f) s = .refused .illFormedVariant)
    ∧ (s.variant.wf = true → f.rst = false → insideSpec s = false → exec (.inWord f) s = .refused .outsideSpec)

/-- An operation that its condition word does not select changes nothing (30 rule R99, 43 rule R162; that it then answers the
same state is the model's choice, notes/assumptions/11.md). -/
def Obligations.UnselectedChangesNothing : Prop :=
  ∀ (s : State) (i : Instr),
    (i ∈ kRows → firesK i s = false → exec i s = .next s)
    ∧ (i ∈ jRows → firesJ i s = false → exec i s = .next s)
    ∧ (s.inp.rst = false → exec .statusLoad s = .next s)

/-- Where an address lies outside its space FRAME_PUBLISH and TX_DRIVE stop with the fault `noSuchBit` (00 rule R14 defines
`MemRead` only inside the space; no run reaches such a state, 40 rule R118; notes/assumptions/10.md). -/
def Obligations.BitReadsOutsideStop : Prop :=
  ∀ s : State, s.inp.rst = false →
    (s.net.fall = true → s.txState = .idle → s.net.hit = true → s.inside = true → s.age + s.variant.n < 0 →
      exec .framePublish s = .fault .noSuchBit)
    ∧ (s.txState = .waitLow → s.inp.pclk = false → s.txb.length ≤ s.txIdx → exec .txDrive s = .fault .noSuchBit)

/-! ## Sampler and boundary detector -/

/-- 60 rule R262: `ERR` is cleared and nothing else changes; the clear comes before any setter of the same cycle, so after the
cycle each bit is 1 exactly where its setter fired in it (for `ERR[3]`: where a frame closed that no longer fits the window). -/
def Obligations.ErrClearResult : Prop :=
  (∀ s : State, s.inp.rst = false → s.inp.errClr = true → exec .errClear s = .next { s with err := 0#4 })
  ∧ ∀ (s t : State) (f : InWord), f.rst = false → f.errClr = true → exec (.inWord f) s = .next t →
      (t.err.getLsbD 0 = true ↔ t.out.txDone = some .clockTimeout)
      ∧ (t.err.getLsbD 1 = true ↔ t.out.txDone = some .windowTimeout)
      ∧ (t.err.getLsbD 2 = true ↔ f.storeFail = true)
      ∧ t.err.getLsbD 3 =
          (let w := if s.w.length = s.variant.cap then s.w.drop 1 ++ [f.pdataI] else s.w ++ [f.pdataI]
           s.pclkQ && !f.pclk && s.txState == .idle && s.inside && flagAtTail s.variant w
             && decide ((w.length : Int) < s.age + 1 + s.variant.n))

/-- 40 rule R110. -/
def Obligations.EdgeDetectResult : Prop :=
  ∀ s : State, s.inp.rst = false →
    exec .edgeDetect s = .next { s with
      pclkQ := s.inp.pclk, net := { s.net with fall := decide (s.pclkQ = true ∧ s.inp.pclk = false) } }

/-- 40 rule R113 and 41 rule R130. -/
def Obligations.WinAppendAndAgeIncResult : Prop :=
  ∀ s : State, s.inp.rst = false → s.net.fall = true → s.txState = .idle →
    exec .winAppend s = .next { s with
      w := if s.w.length = s.variant.cap then s.w.drop 1 ++ [s.inp.pdataI] else s.w ++ [s.inp.pdataI] }
    ∧ exec .ageInc s = .next { s with age := s.age + 1 }

/-- 41 rule R131, the comparison index by index. -/
def Obligations.FlagMatchResult : Prop :=
  ∀ s : State, s.inp.rst = false → s.net.fall = true → s.txState = .idle →
    ∃ m : Bool, exec .flagMatch s = .next { s with net := { s.net with hit := m } }
      ∧ (m = true ↔ s.variant.n ≤ s.w.length
          ∧ ∀ j, j < s.variant.n → s.w[s.w.length - s.variant.n + j]? = s.variant.flag[j]?)

/-- 41 rule R132: the last `L = age + N` bits of the window become the snapshot. -/
def Obligations.FramePublishResult : Prop :=
  ∀ (s : State) (l : Nat), s.inp.rst = false → s.net.fall = true → s.txState = .idle → s.net.hit = true →
    s.inside = true → s.age + s.variant.n = l → l ≤ s.w.length →
    exec .framePublish s = .next { s with fsValid := true, fs := s.w.drop (s.w.length - l) }
    ∧ (s.w.drop (s.w.length - l)).length = l

/-- 41 rule R133, 60 rule R257 (X8). -/
def Obligations.FrameDropResult : Prop :=
  ∀ s : State, s.inp.rst = false → s.net.fall = true → s.txState = .idle → s.net.hit = true → s.inside = true →
    (s.w.length : Int) < s.age + s.variant.n →
    exec .frameDrop s = .next { s with err := s.err ||| 0b1000#4 }

/-- 41 rules R134 and R135, 60 rule R252 (X3). -/
def Obligations.ToggleAndRecoverResult : Prop :=
  ∀ s : State, s.inp.rst = false → s.net.fall = true → s.txState = .idle →
    (s.net.hit = true → exec .boundaryToggle s = .next { s with inside := !s.inside, age := 0 })
    ∧ (s.net.hit = false → (s.variant.cap : Int) < s.age →
        exec .syncRecover s = .next { s with inside := false, age := -1 })

/-- 41 rule R136, the test bit by bit. -/
def Obligations.QuietDetectResult : Prop :=
  ∀ s : State, s.inp.rst = false → s.net.fall = true → s.txState = .idle →
    ∃ q : Bool, exec .quietDetect s = .next { s with txw := q }
      ∧ (q = true ↔ s.inside = false ∧ s.variant.quiet ≤ s.w.length
          ∧ ∀ k, k < s.variant.quiet → s.w[s.w.length - 1 - k]? = some true)

/-- 40 rule R111: the parts of SAMPLE in their order, from every state whose `age` is in its range. -/
def Obligations.SampleResult : Prop :=
  ∀ s : State, s.inp.rst = false → s.net.fall = true → s.txState = .idle → -1 ≤ s.age →
    let w := if s.w.length = s.variant.cap then s.w.drop 1 ++ [s.inp.pdataI] else s.w ++ [s.inp.pdataI]
    let m := flagAtTail s.variant w
    let closes := m && s.inside
    let fits := decide (s.age + 1 + s.variant.n ≤ w.length)
    let lost := !m && decide ((s.variant.cap : Int) < s.age + 1)
    let inside := if m then !s.inside else s.inside && !lost
    exec .sample s = .next { s with
      w := w
      age := if m then 0 else if lost then -1 else s.age + 1
      inside := inside
      fs := if closes && fits then w.drop (w.length - (s.age + 1 + s.variant.n).toNat) else s.fs
      fsValid := s.fsValid || closes && fits
      err := if closes && !fits then s.err ||| 0b1000#4 else s.err
      txw := !inside && quietAtTail s.variant w
      net := { s.net with hit := m } }

/-- 40 rule R116. -/
def Obligations.SampleSuspendResult : Prop :=
  ∀ s : State, s.inp.rst = false → s.net.fall = true → s.txState ≠ .idle →
    exec .sampleSuspend s = .next { s with w := [], txw := false }

/-- 70 rule R290: from any receiver state, `C + 1` consecutive samples without a flag leave `inside = 0`. (An `age` of -1
goes with `inside = 0` in every state a run reaches: `FrameInv.counted`.) -/
def Obligations.LostSyncRecovers : Prop :=
  ∀ (s t : State) (ds : Bits), s.txState = .idle → -1 ≤ s.age → s.age ≤ s.variant.cap →
    (s.inside = true → 0 ≤ s.age) → ds.length = s.variant.cap + 1 → quietSamples ds s = some t → t.inside = false

/-! ## Stuffing engine -/

/-- 42 rule R150: DESTUFF in DECODE, and the function as the rule's loop, oldest bit first. -/
def Obligations.DestuffResult : Prop :=
  (∀ s : State, s.net.decoding = true → s.variant.stuffEn = true →
    exec .destuff s = .next { s with net := { s.net with dst := destuff s.variant.run s.fs } })
  ∧ ∀ (run : Nat) (f : Bits),
    destuff run f = (f.foldl
      (fun (acc : Bits × Nat) bit =>
        if bit = true then (acc.1 ++ [true], acc.2 + 1)
        else if acc.2 = run then (acc.1, 0) else (acc.1 ++ [false], 0))
      ([], 0)).1
    ∧ (destuff run f).length ≤ f.length

/-- 42 rule R152: the function as the rule's loop, its length bounds, and no run of more than `S` ones in its output; and STUFF
as a row of the table, which leaves its value in the wire `result` by the model's choice (notes/assumptions/17.md). -/
def Obligations.StuffResult : Prop :=
  (∀ (x : Bits) (s : State), exec (.stuff x) s = .next { s with net := { s.net with result := stuff s.variant.run x } })
  ∧ ∀ (run : Nat) (x : Bits), 1 ≤ run →
    stuff run x = (x.foldl
      (fun (acc : Bits × Nat) bit =>
        if bit = true then
          if acc.2 + 1 = run then (acc.1 ++ [true, false], 0) else (acc.1 ++ [true], acc.2 + 1)
        else (acc.1 ++ [false], 0))
      ([], 0)).1
    ∧ x.length ≤ (stuff run x).length ∧ (stuff run x).length ≤ x.length + x.length / run
    ∧ ¬(List.replicate (run + 1) true <:+: stuff run x)

/-- 42 rule R153. -/
def Obligations.DestuffUndoesStuff : Prop :=
  ∀ (run : Nat) (x : Bits), 1 ≤ run → destuff run (stuff run x) = x

/-! ## Frame decoder -/

/-- The discards' own part of 43 rules R163 and R164 (X1 and X2); the trace is `DecodeResult`'s. -/
def Obligations.DiscardResult : Prop :=
  ∀ s : State, s.net.decoding = true →
    (s.net.dst.length % 8 ≠ 0 →
      exec .discardMalformed s = .next { s with fsValid := false, net := { s.net with reason := .notMultipleOf8 } })
    ∧ (s.net.dst.length % 8 = 0 → s.net.dst.length ≠ 72 →
      exec .discardLength s = .next { s with fsValid := false, net := { s.net with reason := .not72 } })

/-- 43 rules R166 and R168: the masks bit by bit, and the forcing of Triggered. -/
def Obligations.ZoneDecodeResult : Prop :=
  ∀ s : State, s.net.decoding = true → s.net.dst.length = 72 → s.net.dst.getD s.variant.idxDisc false = false →
    let d := s.net.dst
    let v := s.variant
    let forced := v.zoneTrigForces && (List.range 8).any fun k => d.getD (v.idxActive + 8 + k) false
    let bank := if d.getD v.idxBank false then 8 else 0
    ∃ m : ZoneMasks,
      (∀ z, z < 16 →
        m.active.getLsbD z = (decide (bank ≤ z ∧ z < bank + 8) && d.getD (v.idxActive + (z - bank)) false)
        ∧ m.trig.getLsbD z = (decide (bank ≤ z ∧ z < bank + 8) && d.getD (v.idxActive + 8 + (z - bank)) false))
      ∧ exec .zoneDecode s = .next { s with
          status := if forced then .triggered else s.status
          net := { s.net with
            reason := .zoneReport, nextStatus := if forced then .triggered else s.net.nextStatus }
          out := { s.out with
            zone := some m
            st := if forced then some .triggered else s.out.st
            store := if forced && s.status != .triggered then some (storeMap v .triggered) else s.out.store } }
      ∧ (forced = true →
          exec .zoneForce s = .next { s with
            status := .triggered
            net := { s.net with nextStatus := .triggered }
            out := { s.out with
              st := some .triggered
              store := if s.status != .triggered then some (storeMap v .triggered) else s.out.store } })

/-- 43 rule R167: which events a pulse carries and their order. -/
def Obligations.ZoneEventOrder : Prop :=
  ∀ m : ZoneMasks,
    (∀ z, ((z, ZoneKind.activated) ∈ zoneEvents m ↔ 1 ≤ z ∧ z ≤ 16 ∧ m.active.getLsbD (z - 1) = true)
      ∧ ((z, ZoneKind.triggered) ∈ zoneEvents m ↔ 1 ≤ z ∧ z ≤ 16 ∧ m.trig.getLsbD (z - 1) = true))
    ∧ (zoneEvents m).Pairwise fun e g =>
        (e.2 = .activated ∧ g.2 = .triggered) ∨ (e.2 = g.2 ∧ e.1 < g.1)

/-- 43 rule R169, with the next status of rule R170 or R172 on its operands. -/
def Obligations.StatusDecodeResult : Prop :=
  ∀ s : State, s.net.decoding = true → s.net.dst.length = 72 → s.net.dst.getD s.variant.idxDisc false = true →
    let d := s.net.dst
    let v := s.variant
    let rich := nextStatusRich s.status (d.getD v.idxA false) (d.getD v.idxB false) (d.getD v.idxC false)
      (d.getD v.idxTotal false) (d.getD v.idxPartial false)
    let simple := nextStatusSimple (d.getD v.idxC false) (d.getD v.idxTotal false) (d.getD v.idxPartial false)
    let next := if v.decodeMode = .rich then rich else simple
    exec .statusDecode s = .next { s with
      status := next
      net := { s.net with reason := .statusReport, nextStatus := next }
      out := { s.out with
        st := some next
        store := if next != s.status then some (storeMap v next) else s.out.store } }
    ∧ (v.decodeMode = .rich → exec .nextStatusRich s = .next { s with net := { s.net with nextStatus := rich } })
    ∧ (v.decodeMode = .simple → exec .nextStatusSimple s = .next { s with net := { s.net with nextStatus := simple } })

/-- The whole table of 43 rule R171 with its consequences (i) to (v), and the table of rule R172. -/
def Obligations.NextStatusTables : Prop :=
  (∀ (cur : AlarmStatus) (a b c t p : Bool),
    (richTable a b c t p)[(statusNum cur).toNat]? = some (nextStatusRich cur a b c t p)
    ∧ (¬(b = true ∧ c = true) → ¬(a = true ∧ b = false) → a = true → b = true ∧ c = false)
    ∧ (nextStatusRich cur a b c t p = .triggered → cur = .triggered ∨ (a = true ∧ b = true ∧ c = true))
    ∧ (cur = .triggered → nextStatusRich cur a b c t p ≠ .triggered →
        (a = false ∧ b = true ∧ c = true ∧ nextStatusRich cur a b c t p = .chime) ∨ (a = true ∧ b = false)
        ∨ (a = false ∧ ¬(b = true ∧ c = true)))
    ∧ (nextStatusRich cur a b c t p = .chime ↔ a = false ∧ b = true ∧ c = true)
    ∧ (∀ other : AlarmStatus,
        (cur = .triggered ↔ other = .triggered) → (cur = .armedPartial ↔ other = .armedPartial) →
        (cur = .armedTotal ↔ other = .armedTotal) → nextStatusRich cur a b c t p = nextStatusRich other a b c t p)
    ∧ (nextStatusRich cur a b c true true = nextStatusRich cur a b c false true))
  ∧ nextStatusSimple false false false = .disarmed ∧ nextStatusSimple false false true = .armedPartial
  ∧ nextStatusSimple false true false = .armedTotal ∧ nextStatusSimple false true true = .armedPartial
  ∧ nextStatusSimple true false false = .disarmed ∧ nextStatusSimple true false true = .armingPartial
  ∧ nextStatusSimple true true false = .armingTotal ∧ nextStatusSimple true true true = .armingPartial

/-- 44 rule R186 for both ways into STATUS_UPDATE: the publish part and the store part, and the whole update. That the publish
part is the one that writes `status` and that the store part runs first is the model's inference from the rule's comparison
with `status` "as it was before this update" (notes/assumptions/12.md). Run again with the same new status the update publishes
and does not store (section 8.6 of the source). -/
def Obligations.StatusUpdateResult : Prop :=
  ∀ s : State, s.net.decoding = true → s.net.dst.length = 72 →
    let next := s.net.nextStatus
    let published : State := { s with status := next, out := { s.out with st := some next } }
    let stored : State := { s with out := { s.out with store := some (storeMap s.variant next) } }
    let updated : State := { s with
      status := next
      out := { s.out with
        st := some next, store := if next ≠ s.status then some (storeMap s.variant next) else s.out.store } }
    let again : State := { updated with out := { Pulses.zero with st := some next } }
    (s.net.dst.getD s.variant.idxDisc false = true →
      exec .updPublishStatus s = .next published
      ∧ exec .updStoreStatus s = .next (if next ≠ s.status then stored else s)
      ∧ runAll [exec .updStoreStatus, exec .updPublishStatus] s = .next updated
      ∧ runAll [exec .updStoreStatus, exec .updPublishStatus] { updated with out := Pulses.zero } = .next again)
    ∧ (s.net.dst.getD s.variant.idxDisc false = false → s.variant.zoneTrigForces = true →
        ((List.range 8).any fun k => s.net.dst.getD (s.variant.idxActive + 8 + k) false) = true →
      exec .updPublishZone s = .next published
      ∧ exec .updStoreZone s = .next (if next ≠ s.status then stored else s)
      ∧ runAll [exec .updStoreZone, exec .updPublishZone] s = .next updated
      ∧ runAll [exec .updStoreZone, exec .updPublishZone] { updated with out := Pulses.zero } = .next again)

/-- 43 rule R175: the pulse, and the port words it shows; nothing else changes. -/
def Obligations.TraceResult : Prop :=
  ∀ s : State, s.net.decoding = true → s.inp.dbgTraceEn = true →
    let traced : State := { s with
      out := { s.out with trc := some { reason := s.net.reason, raw := s.fs, dst := s.net.dst } } }
    exec .trace s = .next traced
    ∧ (pulsePorts traced).trcValid = true ∧ (pulsePorts traced).trcReason = trcReasonNum s.net.reason
    ∧ (pulsePorts traced).trcRawLen = s.fs.length ∧ (pulsePorts traced).trcDstLen = s.net.dst.length
    ∧ ∀ i, i < s.variant.cap →
        (pulsePorts traced).trcRaw[i]? = some (s.fs.getD i false)
        ∧ (pulsePorts traced).trcDst[i]? = some (s.net.dst.getD i false)

/-- 43 rule R160, with the discards of rules R163 and R164: everything a DECODE cycle does to the registers and pulses. -/
def Obligations.DecodeResult : Prop :=
  ∀ s : State, s.inp.rst = false → s.fsValid = true →
    let v := s.variant
    let d := if v.stuffEn then destuff v.run s.fs else s.fs
    let whole := decide (d.length = 72)
    let zone := whole && !d.getD v.idxDisc false
    let report := whole && d.getD v.idxDisc false
    let forced := zone && v.zoneTrigForces && (List.range 8).any fun k => d.getD (v.idxActive + 8 + k) false
    let next :=
      if forced then .triggered
      else if v.decodeMode = .rich then
        nextStatusRich s.status (d.getD v.idxA false) (d.getD v.idxB false) (d.getD v.idxC false)
          (d.getD v.idxTotal false) (d.getD v.idxPartial false)
      else nextStatusSimple (d.getD v.idxC false) (d.getD v.idxTotal false) (d.getD v.idxPartial false)
    let reason : TrcReason :=
      if d.length % 8 ≠ 0 then .notMultipleOf8
      else if d.length ≠ 72 then .not72
      else if zone then .zoneReport else .statusReport
    ∃ net : Nets, exec .decode s = .next { s with
      fsValid := false
      status := if report || forced then next else s.status
      net := net
      out := { s.out with
        zone := if zone then some (zoneMasks v d) else s.out.zone
        st := if report || forced then some next else s.out.st
        store := if (report || forced) && next != s.status then some (storeMap v next) else s.out.store
        trc := if s.inp.dbgTraceEn then some { reason := reason, raw := s.fs, dst := d } else s.out.trc } }

/-! ## Reset and the alarm status -/

/-- 70 rule R280: RESET leaves `S0` from every state, alone in its cycle, whatever the other inputs are. -/
def Obligations.ResetLeaves : Prop :=
  ∀ s : State,
    (s.inp.rst = true →
      exec .reset s = .next { State.afterReset s.variant (loadMap s.variant s.inp.statusInit) with
        stim := s.stim, drawn := s.drawn, inp := s.inp, net := s.net })
    ∧ ∀ f : InWord, f.rst = true → s.variant.wf = true →
      exec (.inWord f) s = .next { State.afterReset s.variant (loadMap s.variant f.statusInit) with
        stim := s.stim, drawn := s.drawn }

/-- 44 rule R185, with the maps of V_REF (30 rule R96) and their round trip (44 rule R188). -/
def Obligations.StatusLoadResult : Prop :=
  (∀ s : State, s.inp.rst = true →
    exec .statusLoad s = .next { s with status := loadMap s.variant s.inp.statusInit })
  ∧ (∀ b : Byte, (statusNum (loadMap Config.vRef b)).toNat = min b.toNat 6)
  ∧ ∀ st : AlarmStatus, storeMap Config.vRef st = (statusNum st).setWidth 8
      ∧ loadMap Config.vRef (storeMap Config.vRef st) = st

/-- 44 rule R189, 60 rule R256 (X7). -/
def Obligations.StoreFailResult : Prop :=
  ∀ s : State, s.inp.rst = false → s.inp.storeFail = true →
    exec .storeFailLatch s = .next { s with err := s.err ||| 0b0100#4 }

/-! ## Command port and transmitter -/

/-- 45 rules R201 and R202 (X6). -/
def Obligations.CommandPortResult : Prop :=
  ∀ s : State, s.inp.rst = false → s.inp.cmdValid = true →
    (s.cpValid = false → exec .cmdAccept s = .next { s with
      cpValid := true, cpCode := s.inp.cmdCode, wtCnt := 0, out := { s.out with cmdResp := .accepted } })
    ∧ (s.cpValid = true → exec .cmdReject s = .next { s with out := { s.out with cmdResp := .busy } })

/-- 45 rule R203: the key code least significant bit first, header and code stuffed as one, then the flag and a 0; with a
well-formed Variant the sequence fits the transmit buffer (00 rule R9). That TX_BUILD as a row of the table leaves its value in
the wire `result` is the model's choice (notes/assumptions/17.md). -/
def Obligations.TxBuildResult : Prop :=
  ∀ (s : State) (code : Byte),
    let v := s.variant
    let body := v.hdr ++ [code.getLsbD 0, code.getLsbD 1, code.getLsbD 2, code.getLsbD 3, code.getLsbD 4, code.getLsbD 5,
      code.getLsbD 6, code.getLsbD 7]
    let sent := if v.stuffEn then stuff v.run body else body
    exec (.txBuild code) s = .next { s with net := { s.net with result := sent ++ v.flag ++ [false] } }
    ∧ (sent ++ v.flag ++ [false]).length = sent.length + v.n + 1
    ∧ (v.wf = true → (sent ++ v.flag ++ [false]).length ≤ if v.stuffEn then 32 + 32 / v.run + v.n + 1 else 32 + v.n + 1)

/-- 46 rule R216. -/
def Obligations.TxLoadResult : Prop :=
  ∀ s : State, s.inp.rst = false → s.txState = .idle → s.cpValid = true → s.txw = true →
    exec .txLoad s = .next { s with
      txb := txBuild s.variant s.cpCode, txIdx := 0, cpValid := false, txState := .waitLow, ctCnt := 0, wtCnt := 0 }

/-- 46 rules R217 and R218 (X5). -/
def Obligations.TxWindowWaitResult : Prop :=
  ∀ s : State, s.inp.rst = false → s.txState = .idle → s.cpValid = true → s.txw = false →
    (s.wtCnt + 1 < s.variant.windowTimeout → exec .txWaitWindow s = .next { s with wtCnt := s.wtCnt + 1 })
    ∧ (s.variant.windowTimeout ≤ s.wtCnt + 1 → exec .txWinTimeout s = .next { s with
        cpValid := false, wtCnt := 0, err := s.err ||| 0b0010#4
        out := { s.out with txDone := some .windowTimeout } })

/-- 46 rule R219. -/
def Obligations.TxDriveResult : Prop :=
  ∀ (s : State) (inRange : s.txIdx < s.txb.length), s.inp.rst = false → s.txState = .waitLow → s.inp.pclk = false →
    exec .txDrive s = .next { s with
      pdataOe := true, pdataO := s.txb[s.txIdx], txState := .waitHigh, ctCnt := 0 }

/-- 46 rules R220 and R221. -/
def Obligations.TxAdvanceAndReleaseResult : Prop :=
  ∀ s : State, s.inp.rst = false → s.txState = .waitHigh → s.inp.pclk = true →
    (s.txIdx + 1 < s.txb.length →
      exec .txAdvance s = .next { s with txIdx := s.txIdx + 1, txState := .waitLow, ctCnt := 0 })
    ∧ (s.txIdx + 1 = s.txb.length →
      exec .txRelease s = .next { s with
        pdataOe := false, pdataO := false, txState := .idle, txIdx := 0, txb := [], ctCnt := 0
        out := { s.out with txDone := some .sent } })

/-- 46 rules R223 and R224 (X4), for both waits. -/
def Obligations.TxStallAndTimeoutResult : Prop :=
  ∀ s : State, s.inp.rst = false →
    let stalled : State := { s with ctCnt := s.ctCnt + 1 }
    let aborted : State := { s with
      pdataOe := false, pdataO := false, txState := .idle, txIdx := 0, txb := [], ctCnt := 0
      err := s.err ||| 0b0001#4, out := { s.out with txDone := some .clockTimeout } }
    (s.txState = .waitLow → s.inp.pclk = true →
      (s.ctCnt + 1 < s.variant.clkTimeout → exec .txStallL s = .next stalled)
      ∧ (s.variant.clkTimeout ≤ s.ctCnt + 1 → exec .txClkTimeoutL s = .next aborted))
    ∧ (s.txState = .waitHigh → s.inp.pclk = false →
      (s.ctCnt + 1 < s.variant.clkTimeout → exec .txStallH s = .next stalled)
      ∧ (s.variant.clkTimeout ≤ s.ctCnt + 1 → exec .txClkTimeoutH s = .next aborted))

/-! ## The format rows (notes/assumptions/8.md: what a format row does is the model's choice) -/

/-- FLAG and RAW_FRAME are the cycles that receive their bits (30 rules R82, R83, R104), and they complete from every state from
which a cycle without reset completes. With the transmitter idle and nothing pending, the window ends up with the last `C` bits
of what it held and what was received, a flag has just toggled the boundary, and the command and transmitter registers are as
before. -/
def Obligations.WireFormatsResult : Prop :=
  ∀ (s : State) (p bits : Bits) (i : Instr),
    (i = .flagVRef ∧ bits = flagBits) ∨ (i = .rawFrame p ∧ bits = s.variant.flag ++ p ++ s.variant.flag) →
    s.variant.wf = true → insideSpec s = true →
    ∃ t, exec i s = .next t ∧ insideSpec t = true ∧ t.variant = s.variant ∧ t.stim = s.stim ∧ t.drawn = s.drawn
      ∧ (s.txState = .idle → s.cpValid = false →
          t.w = (s.w ++ bits).drop (s.w.length + bits.length - s.variant.cap)
          ∧ (s.variant.flag <:+ bits → t.age = 0)
          ∧ t.pclkQ = false ∧ t.cpValid = false ∧ t.cpCode = s.cpCode ∧ t.txState = .idle ∧ t.txIdx = s.txIdx
          ∧ t.txb = s.txb ∧ t.ctCnt = s.ctCnt ∧ t.wtCnt = s.wtCnt ∧ t.pdataO = s.pdataO ∧ t.pdataOe = s.pdataOe)

/-- FLAG and RAW_FRAME stop where their first cycle stops (00 rule R10, 93 U3; notes/assumptions/9.md and 10.md). A RAW_FRAME
without any bit, possible only for an ill-formed Variant whose flag is empty, has no cycle and is not spoken of. -/
def Obligations.WireFormatsStop : Prop :=
  ∀ (s : State) (p bits : Bits) (i : Instr),
    (i = .flagVRef ∧ bits = flagBits) ∨ (i = .rawFrame p ∧ bits = s.variant.flag ++ p ++ s.variant.flag) →
    bits ≠ [] →
    (s.variant.wf = false → exec i s = .refused .illFormedVariant)
    ∧ (s.variant.wf = true → insideSpec s = false → exec i s = .refused .outsideSpec)

/-- ZONE_REPORT, read by a decoder whose Variant is V_REF (30 rules R87, R89): the bank selects the half of the masks, no
other bit of the frame matters, and no register changes. With any other Variant the row completes too. -/
def Obligations.ZoneReportFormatResult : Prop :=
  ∀ (s : State) (bank : Bool) (gap1 : BitVec 7) (active trig : Byte) (gap2 : BitVec 31),
    (∃ t, exec (.zoneReport bank gap1 active trig gap2) s = .next t)
    ∧ (s.variant = Config.vRef →
        ∃ net : Nets, exec (.zoneReport bank gap1 active trig gap2) s = .next { s with
          net := net
          out := { s.out with zone := some {
            active := if bank then active.setWidth 16 <<< 8 else active.setWidth 16
            trig := if bank then trig.setWidth 16 <<< 8 else trig.setWidth 16 } } })

/-- STATUS_REPORT, read by a decoder whose Variant is V_REF (30 rule R88): the status register takes the next status of
43 rule R170, it is published, and it is stored where it changed; no other bit of the frame matters. With any other Variant
the row completes too. -/
def Obligations.StatusReportFormatResult : Prop :=
  ∀ (s : State) (gap1 : Byte) (a b c : Bool) (gap2 : BitVec 5) (t p : Bool) (gap3 : BitVec 37),
    (∃ u, exec (.statusReport gap1 a b c gap2 t p gap3) s = .next u)
    ∧ (s.variant = Config.vRef →
        let next := nextStatusRich s.status a b c t p
        ∃ net : Nets, exec (.statusReport gap1 a b c gap2 t p gap3) s = .next { s with
          net := net
          status := next
          out := { s.out with
            st := some next
            store := if next != s.status then some ((statusNum next).setWidth 8) else s.out.store } })

/-- The code words of the ports and registers (30 rules R95, R96, R97; 10 rule R32) and the unstuffed command frame (30 rule
R90): each value goes where the spec puts it and nothing else changes. The values of the persisted byte and of the command
frame are left in the wire `result` by the model's choice (notes/assumptions/17.md). -/
def Obligations.CodeWordsResult : Prop :=
  ∀ s : State,
    (∀ st, exec (.statusCode st) s = .next { s with status := st, out := { s.out with st := some st } })
    ∧ (∀ b, exec (.persistedByte b) s = .next { s with
        status := loadMap s.variant b
        net := { s.net with result := bitsOf (storeMap s.variant (loadMap s.variant b)) } })
    ∧ (∀ r, exec (.cmdResp r) s = .next { s with out := { s.out with cmdResp := r } })
    ∧ (∀ r, exec (.txResult r) s = .next { s with out := { s.out with txDone := some r } })
    ∧ (∀ r, exec (.trcReason r) s = .next { s with
        out := { s.out with trc := some { reason := r, raw := s.fs, dst := s.net.dst } } })
    ∧ (∀ e, exec (.errBits e) s = .next { s with err := s.err ||| e })
    ∧ ∀ code : Byte, exec (.cmdFrame code) s = .next { s with net := { s.net with
        result := s.variant.hdr ++ [code.getLsbD 0, code.getLsbD 1, code.getLsbD 2, code.getLsbD 3, code.getLsbD 4,
          code.getLsbD 5, code.getLsbD 6, code.getLsbD 7] ++ s.variant.flag ++ [false] } }

/-! ## Invariants -/

/-- 10 rule R28: the sampler's invariants hold after reset; every operation that a stage fires keeps them, and so does every
cycle. -/
def Obligations.SamplerInvariants : Prop :=
  (∀ (v : Variant) (st : AlarmStatus), v.wf = true → SamplerInv (State.afterReset v st))
  ∧ (∀ (s t : State) (i : Instr), s.variant.wf = true → i ∈ .reset :: stageGroups.flatten → SamplerInv s →
      exec i s = .next t → SamplerInv t)
  ∧ ∀ s t : State, SamplerInv s → step s = .next t → SamplerInv t

/-- The register `age` (00 rules R9 and R13, 10 rules R26 and R44): `AGE_W` is one more than the least `k` with
`C + 2 ≤ 2 ^ k`; in its bits every value from -1 to the in-cycle `C + 1` reads back as itself; AGE_INC adds 1 to them; and every
step from a state with the sampler's invariants leaves a value that they hold. -/
def Obligations.AgeFitsItsRegister : Prop :=
  (∀ v : Variant, 1 ≤ Config.ageW v ∧ ∀ k, v.cap + 2 ≤ 2 ^ k ↔ Config.ageW v ≤ k + 1)
  ∧ (∀ (v : Variant) (a : Int), -1 ≤ a → a ≤ v.cap + 1 → (ageBits v a).toInt = a)
  ∧ (∀ s : State, s.inp.rst = false → s.net.fall = true → s.txState = .idle →
      ∃ t, exec .ageInc s = .next t ∧ ageBits s.variant t.age = ageBits s.variant s.age + 1#_)
  ∧ ∀ s t : State, SamplerInv s → step s = .next t → (ageBits t.variant t.age).toInt = t.age

/-- Every step keeps the invariant of a good state (10 rules R28, R30, R34 to R37; 30 rule R83; 46 rule R226). -/
def Obligations.InvKept : Prop :=
  ∀ s t : State, Inv s → step s = .next t → Inv t

/-- The state after reset is good, for every well-formed Variant and every loaded status; so is `State.reset`, whose Variant
and status are the model's choice (notes/assumptions/1.md and 2.md). -/
def Obligations.InvAtReset : Prop :=
  (∀ (v : Variant) (st : AlarmStatus), v.wf = true → Inv (State.afterReset v st)) ∧ Inv State.reset

/-- From a good state the machine always steps: no fault and no refusal is reached (60 rules R250 and R258: nothing stops
the block). -/
def Obligations.GoodStatesStep : Prop :=
  ∀ s : State, Inv s → ∃ t, step s = .next t

/-- The memories keep their form: no space outgrows what 20 rule R60 gives it. -/
def Obligations.MemoryKept : Prop :=
  ∀ s t : State, Memory.wf s = true → step s = .next t → Memory.wf t = true

/-! ## Whole-machine rules -/

/-- 46 rule R226 (vi): every transmission ends within `2 * tx_len * CLK_TIMEOUT` cycles, whatever the inputs are. -/
def Obligations.TransmissionEnds : Prop :=
  ∀ s : State, Inv s → s.txState ≠ .idle →
    ∃ k t, k ≤ 2 * s.txb.length * s.variant.clkTimeout ∧ runSteps k s = .next t ∧ t.txState = .idle

/-- 46 rule R226 (iii) and (iv), 41 rule R137: an idle transmitter leaves the line as it is, whatever is requested; it
starts only with `txw = 1`; the line is taken only in a low phase of a loaded transmission; and the level on the line
changes only in a low phase or at release. -/
def Obligations.LineOwnership : Prop :=
  ∀ (s t : State) (f : InWord), f.rst = false → exec (.inWord f) s = .next t →
    (s.txState = .idle → t.pdataOe = s.pdataOe ∧ t.pdataO = s.pdataO)
    ∧ (s.txState = .idle → t.txState ≠ .idle →
        t.txState = .waitLow ∧ t.txw = true ∧ t.txIdx = 0 ∧ t.cpValid = false
          ∧ (s.cpValid = true ∨ f.cmdValid = true))
    ∧ (s.pdataOe = false → t.pdataOe = true → s.txState = .waitLow ∧ f.pclk = false)
    ∧ (t.pdataO ≠ s.pdataO → (s.txState = .waitLow ∧ f.pclk = false) ∨ (s.txState ≠ .idle ∧ t.txState = .idle))

/-- 46 rule R227, 20 rule R73: the transmit buffer is loaded only from an idle transmitter, with the sequence of the pending
or just accepted code; in flight it stays bit for bit until the transmission ends and empties it. -/
def Obligations.InFlightImmutable : Prop :=
  ∀ (s t : State) (f : InWord), f.rst = false → exec (.inWord f) s = .next t →
    (s.txState ≠ .idle → (t.txState ≠ .idle ∧ t.txb = s.txb) ∨ (t.txState = .idle ∧ t.txb = []))
    ∧ (s.txState = .idle →
        (t.txState = .idle ∧ t.txb = s.txb)
        ∨ (t.txState = .waitLow ∧ t.txb = txBuild s.variant (if s.cpValid then s.cpCode else f.cmdCode)))

/-- 44 rule R187: outside reset only DECODE changes the status, to what 43 rule R170 (rich) or R172 (simple) gives for some
bits of a frame or to Triggered by the forcing of 43 rule R168, and it publishes and stores every change; no other operation
of the condition word writes the status. -/
def Obligations.StatusWriters : Prop :=
  (∀ (s t : State) (f : InWord), f.rst = false → exec (.inWord f) s = .next t → t.status ≠ s.status →
    s.fsValid = true ∧ t.out.st = some t.status ∧ t.out.store = some (storeMap s.variant t.status)
      ∧ ((s.variant.zoneTrigForces = true ∧ t.status = .triggered)
        ∨ (s.variant.decodeMode = .rich ∧ ∃ a b c x p : Bool, t.status = nextStatusRich s.status a b c x p)
        ∨ (s.variant.decodeMode = .simple ∧ ∃ c x p : Bool, t.status = nextStatusSimple c x p)))
  ∧ ∀ (s t : State) (i : Instr), i ∈ kRows → i ≠ .reset → i ≠ .decode → exec i s = .next t → t.status = s.status

/-- 10 rule R29: outside reset the receiver's registers change only in a cycle with a falling edge of `pclk`, and no decoder,
command, transmitter or error operation writes them. -/
def Obligations.ReceiverWriters : Prop :=
  (∀ (s t : State) (f : InWord), f.rst = false → exec (.inWord f) s = .next t →
    ¬(s.pclkQ = true ∧ f.pclk = false) → t.w = s.w ∧ t.inside = s.inside ∧ t.age = s.age ∧ t.txw = s.txw)
  ∧ ∀ (s t : State) (i : Instr),
    i ∈ ([.errClear, .edgeDetect, .decode, .cmdAccept, .cmdReject, .txLoad, .txWaitWindow, .txWinTimeout, .txDrive,
      .txAdvance, .txRelease, .txStallL, .txStallH, .txClkTimeoutL, .txClkTimeoutH, .storeFailLatch] : List Instr)
      ++ jRows →
    exec i s = .next t → t.w = s.w ∧ t.inside = s.inside ∧ t.age = s.age ∧ t.txw = s.txw

/-- 10 rule R32: each sticky bit is set exactly by its operation and cleared only by ERR_CLEAR and RESET; a set in the cycle
of the clear wins (60 rule R262). -/
def Obligations.StickyErrors : Prop :=
  ∀ (s t : State) (f : InWord), exec (.inWord f) s = .next t →
    let before := fun n => s.err.getLsbD n && !f.errClr
    let w := if s.w.length = s.variant.cap then s.w.drop 1 ++ [f.pdataI] else s.w ++ [f.pdataI]
    (f.rst = true → t.err = 0)
    ∧ (f.rst = false →
        t.err.getLsbD 0 = (before 0 || t.out.txDone == some .clockTimeout)
        ∧ t.err.getLsbD 1 = (before 1 || t.out.txDone == some .windowTimeout)
        ∧ t.err.getLsbD 2 = (before 2 || f.storeFail)
        ∧ t.err.getLsbD 3 = (before 3
            || (s.pclkQ && !f.pclk && s.txState == .idle && s.inside && flagAtTail s.variant w
                && decide ((w.length : Int) < s.age + 1 + s.variant.n))))

/-- 48 rule R243, 00 rule R14: which pulses a cycle can raise; every other pulse output is 0. -/
def Obligations.PulseDrivers : Prop :=
  ∀ (s t : State) (f : InWord), exec (.inWord f) s = .next t →
    (f.rst = true → t.out = Pulses.zero)
    ∧ (f.rst = false →
        t.out.cmdResp = (if f.cmdValid then (if s.cpValid then .busy else .accepted) else .noRequest)
        ∧ t.out.trc.isSome = (s.fsValid && f.dbgTraceEn)
        ∧ (s.fsValid = false → t.out.zone = none ∧ t.out.st = none)
        ∧ (t.out.store.isSome = true → t.out.st.isSome = true)
        ∧ (t.out.txDone = some .sent → s.txState = .waitHigh ∧ s.txIdx + 1 = s.txb.length)
        ∧ (t.out.txDone = some .clockTimeout → s.txState ≠ .idle)
        ∧ (t.out.txDone = some .windowTimeout → s.txState = .idle ∧ (s.cpValid = true ∨ f.cmdValid = true)))

/-- 93 U12: a cycle gives the same result for every value of an input it ignores. -/
def Obligations.IgnoredInputs : Prop :=
  ∀ (s : State) (f g : InWord), sameInputs s f g → exec (.inWord f) s = exec (.inWord g) s

end Statements
end

