-- ==== Sys2Proof/Laws/Bits.lean ====
section
/-! SUPPORT. Bit lists against numbers and vectors, and the decoder's one parsing step: what the encoding statements are
proved with. -/

namespace Sys2Proof

@[simp] theorem numBits_length (n w : Nat) : (numBits n w).length = n := by simp [numBits]

@[simp] theorem bitsOf_length {n : Nat} (v : BitVec n) : (bitsOf v).length = n := by simp [bitsOf]

/-- The binary digits of a list's number are the list's bits. -/
theorem natOf_testBit (b : Bits) (i : Nat) : (natOf b).testBit i = b.getD i false := by
  induction b generalizing i with
  | nil => simp [natOf]
  | cons x r ih =>
    cases i with
    | zero => cases x <;> simp [natOf, Nat.testBit_zero]
    | succ i =>
      have half : natOf (x :: r) / 2 = natOf r := by
        cases x
        · simp [natOf]
        · simp only [natOf, if_true]
          omega
      rw [Nat.testBit_succ, half, ih]
      simp

theorem vecOf_getLsbD (n : Nat) (b : Bits) (i : Nat) :
    (vecOf n b).getLsbD i = (decide (i < n) && b.getD i false) := by
  simp [vecOf, BitVec.getLsbD_ofNat, natOf_testBit]

/-- A vector's bits make the vector again. -/
@[simp] theorem vecOf_bitsOf {n : Nat} (v : BitVec n) : vecOf n (bitsOf v) = v := by
  apply BitVec.eq_of_getLsbD_eq
  intro i small
  rw [vecOf_getLsbD]
  simp [small, bitsOf]

/-- The bits of the vector made of `n` bits are those bits. -/
theorem bitsOf_vecOf {n : Nat} {b : Bits} (h : b.length = n) : bitsOf (vecOf n b) = b := by
  apply List.ext_getElem
  · simp [h]
  · intro i inVector inList
    simp only [bitsOf, List.getElem_map, List.getElem_range, vecOf_getLsbD]
    simp only [bitsOf_length] at inVector
    simp [inVector, inList]

/-- A number below `2 ^ n` is read back from its `n` bits. -/
theorem natOf_numBits {n w : Nat} (small : w < 2 ^ n) : natOf (numBits n w) = w := by
  apply Nat.eq_of_testBit_eq
  intro i
  rw [natOf_testBit]
  by_cases inRange : i < n
  · simp [numBits, inRange]
  · have : w.testBit i = false :=
      Nat.testBit_lt_two_pow (lt_of_lt_of_le small (Nat.pow_le_pow_right (by omega) (by omega)))
    simp [numBits, inRange, this]

/-- One step of the parser takes exactly the field that stands in front. -/
theorem withBits_append {n : Nat} {a b : Bits} {k : Bits → Bits → Decoded} (h : a.length = n) :
    withBits n (a ++ b) k = k a b := by
  subst h
  simp [withBits]

/-- A stream shorter than the field is refused by name. -/
theorem withBits_short {n : Nat} {b : Bits} {k : Bits → Bits → Decoded} (h : b.length < n) :
    withBits n b k = .error .truncated := by
  simp [withBits, h]

/-- `ceilLog2` is the least exponent whose power of two reaches the number. -/
theorem ceilLog2_le_iff (n k : Nat) : Config.ceilLog2 n ≤ k ↔ n ≤ 2 ^ k := by
  unfold Config.ceilLog2
  split
  · next small => exact ⟨fun _ => small.trans Nat.one_le_two_pow, fun _ => Nat.zero_le k⟩
  · next large =>
    rw [Nat.succ_le_iff, Nat.log2_lt (by omega)]
    omega

end Sys2Proof
end

