-- ==== Sys2Proof/Laws/State.lean ====
section
/-! SUPPORT. One lemma per field per update: what each named operation of Machine/Ops.lean does to each field of the state. -/

namespace Sys2Proof.Machine


/-! ## `setEdge` -/

@[simp] theorem setEdge_variant (s : State) : (setEdge s).variant = s.variant := rfl
@[simp] theorem setEdge_stim (s : State) : (setEdge s).stim = s.stim := rfl
@[simp] theorem setEdge_drawn (s : State) : (setEdge s).drawn = s.drawn := rfl
@[simp] theorem setEdge_pclkQ (s : State) : (setEdge s).pclkQ = s.inp.pclk := rfl
@[simp] theorem setEdge_w (s : State) : (setEdge s).w = s.w := rfl
@[simp] theorem setEdge_inside (s : State) : (setEdge s).inside = s.inside := rfl
@[simp] theorem setEdge_age (s : State) : (setEdge s).age = s.age := rfl
@[simp] theorem setEdge_txw (s : State) : (setEdge s).txw = s.txw := rfl
@[simp] theorem setEdge_fsValid (s : State) : (setEdge s).fsValid = s.fsValid := rfl
@[simp] theorem setEdge_fs (s : State) : (setEdge s).fs = s.fs := rfl
@[simp] theorem setEdge_status (s : State) : (setEdge s).status = s.status := rfl
@[simp] theorem setEdge_err (s : State) : (setEdge s).err = s.err := rfl
@[simp] theorem setEdge_cpValid (s : State) : (setEdge s).cpValid = s.cpValid := rfl
@[simp] theorem setEdge_cpCode (s : State) : (setEdge s).cpCode = s.cpCode := rfl
@[simp] theorem setEdge_txState (s : State) : (setEdge s).txState = s.txState := rfl
@[simp] theorem setEdge_txIdx (s : State) : (setEdge s).txIdx = s.txIdx := rfl
@[simp] theorem setEdge_txb (s : State) : (setEdge s).txb = s.txb := rfl
@[simp] theorem setEdge_ctCnt (s : State) : (setEdge s).ctCnt = s.ctCnt := rfl
@[simp] theorem setEdge_wtCnt (s : State) : (setEdge s).wtCnt = s.wtCnt := rfl
@[simp] theorem setEdge_pdataO (s : State) : (setEdge s).pdataO = s.pdataO := rfl
@[simp] theorem setEdge_pdataOe (s : State) : (setEdge s).pdataOe = s.pdataOe := rfl
@[simp] theorem setEdge_inp (s : State) : (setEdge s).inp = s.inp := rfl
@[simp] theorem setEdge_net (s : State) : (setEdge s).net = { s.net with fall := s.pclkQ && !s.inp.pclk } := rfl
@[simp] theorem setEdge_out (s : State) : (setEdge s).out = s.out := rfl

/-! ## `appendSample` -/

@[simp] theorem appendSample_variant (s : State) : (appendSample s).variant = s.variant := rfl
@[simp] theorem appendSample_stim (s : State) : (appendSample s).stim = s.stim := rfl
@[simp] theorem appendSample_drawn (s : State) : (appendSample s).drawn = s.drawn := rfl
@[simp] theorem appendSample_pclkQ (s : State) : (appendSample s).pclkQ = s.pclkQ := rfl
@[simp] theorem appendSample_w (s : State) : (appendSample s).w = appendBit s.variant.cap s.w s.inp.pdataI := rfl
@[simp] theorem appendSample_inside (s : State) : (appendSample s).inside = s.inside := rfl
@[simp] theorem appendSample_age (s : State) : (appendSample s).age = s.age := rfl
@[simp] theorem appendSample_txw (s : State) : (appendSample s).txw = s.txw := rfl
@[simp] theorem appendSample_fsValid (s : State) : (appendSample s).fsValid = s.fsValid := rfl
@[simp] theorem appendSample_fs (s : State) : (appendSample s).fs = s.fs := rfl
@[simp] theorem appendSample_status (s : State) : (appendSample s).status = s.status := rfl
@[simp] theorem appendSample_err (s : State) : (appendSample s).err = s.err := rfl
@[simp] theorem appendSample_cpValid (s : State) : (appendSample s).cpValid = s.cpValid := rfl
@[simp] theorem appendSample_cpCode (s : State) : (appendSample s).cpCode = s.cpCode := rfl
@[simp] theorem appendSample_txState (s : State) : (appendSample s).txState = s.txState := rfl
@[simp] theorem appendSample_txIdx (s : State) : (appendSample s).txIdx = s.txIdx := rfl
@[simp] theorem appendSample_txb (s : State) : (appendSample s).txb = s.txb := rfl
@[simp] theorem appendSample_ctCnt (s : State) : (appendSample s).ctCnt = s.ctCnt := rfl
@[simp] theorem appendSample_wtCnt (s : State) : (appendSample s).wtCnt = s.wtCnt := rfl
@[simp] theorem appendSample_pdataO (s : State) : (appendSample s).pdataO = s.pdataO := rfl
@[simp] theorem appendSample_pdataOe (s : State) : (appendSample s).pdataOe = s.pdataOe := rfl
@[simp] theorem appendSample_inp (s : State) : (appendSample s).inp = s.inp := rfl
@[simp] theorem appendSample_net (s : State) : (appendSample s).net = s.net := rfl
@[simp] theorem appendSample_out (s : State) : (appendSample s).out = s.out := rfl

/-! ## `suspendSampler` -/

@[simp] theorem suspendSampler_variant (s : State) : (suspendSampler s).variant = s.variant := rfl
@[simp] theorem suspendSampler_stim (s : State) : (suspendSampler s).stim = s.stim := rfl
@[simp] theorem suspendSampler_drawn (s : State) : (suspendSampler s).drawn = s.drawn := rfl
@[simp] theorem suspendSampler_pclkQ (s : State) : (suspendSampler s).pclkQ = s.pclkQ := rfl
@[simp] theorem suspendSampler_w (s : State) : (suspendSampler s).w = [] := rfl
@[simp] theorem suspendSampler_inside (s : State) : (suspendSampler s).inside = s.inside := rfl
@[simp] theorem suspendSampler_age (s : State) : (suspendSampler s).age = s.age := rfl
@[simp] theorem suspendSampler_txw (s : State) : (suspendSampler s).txw = false := rfl
@[simp] theorem suspendSampler_fsValid (s : State) : (suspendSampler s).fsValid = s.fsValid := rfl
@[simp] theorem suspendSampler_fs (s : State) : (suspendSampler s).fs = s.fs := rfl
@[simp] theorem suspendSampler_status (s : State) : (suspendSampler s).status = s.status := rfl
@[simp] theorem suspendSampler_err (s : State) : (suspendSampler s).err = s.err := rfl
@[simp] theorem suspendSampler_cpValid (s : State) : (suspendSampler s).cpValid = s.cpValid := rfl
@[simp] theorem suspendSampler_cpCode (s : State) : (suspendSampler s).cpCode = s.cpCode := rfl
@[simp] theorem suspendSampler_txState (s : State) : (suspendSampler s).txState = s.txState := rfl
@[simp] theorem suspendSampler_txIdx (s : State) : (suspendSampler s).txIdx = s.txIdx := rfl
@[simp] theorem suspendSampler_txb (s : State) : (suspendSampler s).txb = s.txb := rfl
@[simp] theorem suspendSampler_ctCnt (s : State) : (suspendSampler s).ctCnt = s.ctCnt := rfl
@[simp] theorem suspendSampler_wtCnt (s : State) : (suspendSampler s).wtCnt = s.wtCnt := rfl
@[simp] theorem suspendSampler_pdataO (s : State) : (suspendSampler s).pdataO = s.pdataO := rfl
@[simp] theorem suspendSampler_pdataOe (s : State) : (suspendSampler s).pdataOe = s.pdataOe := rfl
@[simp] theorem suspendSampler_inp (s : State) : (suspendSampler s).inp = s.inp := rfl
@[simp] theorem suspendSampler_net (s : State) : (suspendSampler s).net = s.net := rfl
@[simp] theorem suspendSampler_out (s : State) : (suspendSampler s).out = s.out := rfl

/-! ## `incAge` -/

@[simp] theorem incAge_variant (s : State) : (incAge s).variant = s.variant := rfl
@[simp] theorem incAge_stim (s : State) : (incAge s).stim = s.stim := rfl
@[simp] theorem incAge_drawn (s : State) : (incAge s).drawn = s.drawn := rfl
@[simp] theorem incAge_pclkQ (s : State) : (incAge s).pclkQ = s.pclkQ := rfl
@[simp] theorem incAge_w (s : State) : (incAge s).w = s.w := rfl
@[simp] theorem incAge_inside (s : State) : (incAge s).inside = s.inside := rfl
@[simp] theorem incAge_age (s : State) : (incAge s).age = s.age + 1 := rfl
@[simp] theorem incAge_txw (s : State) : (incAge s).txw = s.txw := rfl
@[simp] theorem incAge_fsValid (s : State) : (incAge s).fsValid = s.fsValid := rfl
@[simp] theorem incAge_fs (s : State) : (incAge s).fs = s.fs := rfl
@[simp] theorem incAge_status (s : State) : (incAge s).status = s.status := rfl
@[simp] theorem incAge_err (s : State) : (incAge s).err = s.err := rfl
@[simp] theorem incAge_cpValid (s : State) : (incAge s).cpValid = s.cpValid := rfl
@[simp] theorem incAge_cpCode (s : State) : (incAge s).cpCode = s.cpCode := rfl
@[simp] theorem incAge_txState (s : State) : (incAge s).txState = s.txState := rfl
@[simp] theorem incAge_txIdx (s : State) : (incAge s).txIdx = s.txIdx := rfl
@[simp] theorem incAge_txb (s : State) : (incAge s).txb = s.txb := rfl
@[simp] theorem incAge_ctCnt (s : State) : (incAge s).ctCnt = s.ctCnt := rfl
@[simp] theorem incAge_wtCnt (s : State) : (incAge s).wtCnt = s.wtCnt := rfl
@[simp] theorem incAge_pdataO (s : State) : (incAge s).pdataO = s.pdataO := rfl
@[simp] theorem incAge_pdataOe (s : State) : (incAge s).pdataOe = s.pdataOe := rfl
@[simp] theorem incAge_inp (s : State) : (incAge s).inp = s.inp := rfl
@[simp] theorem incAge_net (s : State) : (incAge s).net = s.net := rfl
@[simp] theorem incAge_out (s : State) : (incAge s).out = s.out := rfl

/-! ## `setHit` -/

@[simp] theorem setHit_variant (m : Bool) (s : State) : (setHit m s).variant = s.variant := rfl
@[simp] theorem setHit_stim (m : Bool) (s : State) : (setHit m s).stim = s.stim := rfl
@[simp] theorem setHit_drawn (m : Bool) (s : State) : (setHit m s).drawn = s.drawn := rfl
@[simp] theorem setHit_pclkQ (m : Bool) (s : State) : (setHit m s).pclkQ = s.pclkQ := rfl
@[simp] theorem setHit_w (m : Bool) (s : State) : (setHit m s).w = s.w := rfl
@[simp] theorem setHit_inside (m : Bool) (s : State) : (setHit m s).inside = s.inside := rfl
@[simp] theorem setHit_age (m : Bool) (s : State) : (setHit m s).age = s.age := rfl
@[simp] theorem setHit_txw (m : Bool) (s : State) : (setHit m s).txw = s.txw := rfl
@[simp] theorem setHit_fsValid (m : Bool) (s : State) : (setHit m s).fsValid = s.fsValid := rfl
@[simp] theorem setHit_fs (m : Bool) (s : State) : (setHit m s).fs = s.fs := rfl
@[simp] theorem setHit_status (m : Bool) (s : State) : (setHit m s).status = s.status := rfl
@[simp] theorem setHit_err (m : Bool) (s : State) : (setHit m s).err = s.err := rfl
@[simp] theorem setHit_cpValid (m : Bool) (s : State) : (setHit m s).cpValid = s.cpValid := rfl
@[simp] theorem setHit_cpCode (m : Bool) (s : State) : (setHit m s).cpCode = s.cpCode := rfl
@[simp] theorem setHit_txState (m : Bool) (s : State) : (setHit m s).txState = s.txState := rfl
@[simp] theorem setHit_txIdx (m : Bool) (s : State) : (setHit m s).txIdx = s.txIdx := rfl
@[simp] theorem setHit_txb (m : Bool) (s : State) : (setHit m s).txb = s.txb := rfl
@[simp] theorem setHit_ctCnt (m : Bool) (s : State) : (setHit m s).ctCnt = s.ctCnt := rfl
@[simp] theorem setHit_wtCnt (m : Bool) (s : State) : (setHit m s).wtCnt = s.wtCnt := rfl
@[simp] theorem setHit_pdataO (m : Bool) (s : State) : (setHit m s).pdataO = s.pdataO := rfl
@[simp] theorem setHit_pdataOe (m : Bool) (s : State) : (setHit m s).pdataOe = s.pdataOe := rfl
@[simp] theorem setHit_inp (m : Bool) (s : State) : (setHit m s).inp = s.inp := rfl
@[simp] theorem setHit_net (m : Bool) (s : State) : (setHit m s).net = { s.net with hit := m } := rfl
@[simp] theorem setHit_out (m : Bool) (s : State) : (setHit m s).out = s.out := rfl

/-! ## `publishFrame` -/

@[simp] theorem publishFrame_variant (f : Bits) (s : State) : (publishFrame f s).variant = s.variant := rfl
@[simp] theorem publishFrame_stim (f : Bits) (s : State) : (publishFrame f s).stim = s.stim := rfl
@[simp] theorem publishFrame_drawn (f : Bits) (s : State) : (publishFrame f s).drawn = s.drawn := rfl
@[simp] theorem publishFrame_pclkQ (f : Bits) (s : State) : (publishFrame f s).pclkQ = s.pclkQ := rfl
@[simp] theorem publishFrame_w (f : Bits) (s : State) : (publishFrame f s).w = s.w := rfl
@[simp] theorem publishFrame_inside (f : Bits) (s : State) : (publishFrame f s).inside = s.inside := rfl
@[simp] theorem publishFrame_age (f : Bits) (s : State) : (publishFrame f s).age = s.age := rfl
@[simp] theorem publishFrame_txw (f : Bits) (s : State) : (publishFrame f s).txw = s.txw := rfl
@[simp] theorem publishFrame_fsValid (f : Bits) (s : State) : (publishFrame f s).fsValid = true := rfl
@[simp] theorem publishFrame_fs (f : Bits) (s : State) : (publishFrame f s).fs = f := rfl
@[simp] theorem publishFrame_status (f : Bits) (s : State) : (publishFrame f s).status = s.status := rfl
@[simp] theorem publishFrame_err (f : Bits) (s : State) : (publishFrame f s).err = s.err := rfl
@[simp] theorem publishFrame_cpValid (f : Bits) (s : State) : (publishFrame f s).cpValid = s.cpValid := rfl
@[simp] theorem publishFrame_cpCode (f : Bits) (s : State) : (publishFrame f s).cpCode = s.cpCode := rfl
@[simp] theorem publishFrame_txState (f : Bits) (s : State) : (publishFrame f s).txState = s.txState := rfl
@[simp] theorem publishFrame_txIdx (f : Bits) (s : State) : (publishFrame f s).txIdx = s.txIdx := rfl
@[simp] theorem publishFrame_txb (f : Bits) (s : State) : (publishFrame f s).txb = s.txb := rfl
@[simp] theorem publishFrame_ctCnt (f : Bits) (s : State) : (publishFrame f s).ctCnt = s.ctCnt := rfl
@[simp] theorem publishFrame_wtCnt (f : Bits) (s : State) : (publishFrame f s).wtCnt = s.wtCnt := rfl
@[simp] theorem publishFrame_pdataO (f : Bits) (s : State) : (publishFrame f s).pdataO = s.pdataO := rfl
@[simp] theorem publishFrame_pdataOe (f : Bits) (s : State) : (publishFrame f s).pdataOe = s.pdataOe := rfl
@[simp] theorem publishFrame_inp (f : Bits) (s : State) : (publishFrame f s).inp = s.inp := rfl
@[simp] theorem publishFrame_net (f : Bits) (s : State) : (publishFrame f s).net = s.net := rfl
@[simp] theorem publishFrame_out (f : Bits) (s : State) : (publishFrame f s).out = s.out := rfl

/-! ## `toggleBoundary` -/

@[simp] theorem toggleBoundary_variant (s : State) : (toggleBoundary s).variant = s.variant := rfl
@[simp] theorem toggleBoundary_stim (s : State) : (toggleBoundary s).stim = s.stim := rfl
@[simp] theorem toggleBoundary_drawn (s : State) : (toggleBoundary s).drawn = s.drawn := rfl
@[simp] theorem toggleBoundary_pclkQ (s : State) : (toggleBoundary s).pclkQ = s.pclkQ := rfl
@[simp] theorem toggleBoundary_w (s : State) : (toggleBoundary s).w = s.w := rfl
@[simp] theorem toggleBoundary_inside (s : State) : (toggleBoundary s).inside = (!s.inside) := rfl
@[simp] theorem toggleBoundary_age (s : State) : (toggleBoundary s).age = 0 := rfl
@[simp] theorem toggleBoundary_txw (s : State) : (toggleBoundary s).txw = s.txw := rfl
@[simp] theorem toggleBoundary_fsValid (s : State) : (toggleBoundary s).fsValid = s.fsValid := rfl
@[simp] theorem toggleBoundary_fs (s : State) : (toggleBoundary s).fs = s.fs := rfl
@[simp] theorem toggleBoundary_status (s : State) : (toggleBoundary s).status = s.status := rfl
@[simp] theorem toggleBoundary_err (s : State) : (toggleBoundary s).err = s.err := rfl
@[simp] theorem toggleBoundary_cpValid (s : State) : (toggleBoundary s).cpValid = s.cpValid := rfl
@[simp] theorem toggleBoundary_cpCode (s : State) : (toggleBoundary s).cpCode = s.cpCode := rfl
@[simp] theorem toggleBoundary_txState (s : State) : (toggleBoundary s).txState = s.txState := rfl
@[simp] theorem toggleBoundary_txIdx (s : State) : (toggleBoundary s).txIdx = s.txIdx := rfl
@[simp] theorem toggleBoundary_txb (s : State) : (toggleBoundary s).txb = s.txb := rfl
@[simp] theorem toggleBoundary_ctCnt (s : State) : (toggleBoundary s).ctCnt = s.ctCnt := rfl
@[simp] theorem toggleBoundary_wtCnt (s : State) : (toggleBoundary s).wtCnt = s.wtCnt := rfl
@[simp] theorem toggleBoundary_pdataO (s : State) : (toggleBoundary s).pdataO = s.pdataO := rfl
@[simp] theorem toggleBoundary_pdataOe (s : State) : (toggleBoundary s).pdataOe = s.pdataOe := rfl
@[simp] theorem toggleBoundary_inp (s : State) : (toggleBoundary s).inp = s.inp := rfl
@[simp] theorem toggleBoundary_net (s : State) : (toggleBoundary s).net = s.net := rfl
@[simp] theorem toggleBoundary_out (s : State) : (toggleBoundary s).out = s.out := rfl

/-! ## `setTxw` -/

@[simp] theorem setTxw_variant (q : Bool) (s : State) : (setTxw q s).variant = s.variant := rfl
@[simp] theorem setTxw_stim (q : Bool) (s : State) : (setTxw q s).stim = s.stim := rfl
@[simp] theorem setTxw_drawn (q : Bool) (s : State) : (setTxw q s).drawn = s.drawn := rfl
@[simp] theorem setTxw_pclkQ (q : Bool) (s : State) : (setTxw q s).pclkQ = s.pclkQ := rfl
@[simp] theorem setTxw_w (q : Bool) (s : State) : (setTxw q s).w = s.w := rfl
@[simp] theorem setTxw_inside (q : Bool) (s : State) : (setTxw q s).inside = s.inside := rfl
@[simp] theorem setTxw_age (q : Bool) (s : State) : (setTxw q s).age = s.age := rfl
@[simp] theorem setTxw_txw (q : Bool) (s : State) : (setTxw q s).txw = q := rfl
@[simp] theorem setTxw_fsValid (q : Bool) (s : State) : (setTxw q s).fsValid = s.fsValid := rfl
@[simp] theorem setTxw_fs (q : Bool) (s : State) : (setTxw q s).fs = s.fs := rfl
@[simp] theorem setTxw_status (q : Bool) (s : State) : (setTxw q s).status = s.status := rfl
@[simp] theorem setTxw_err (q : Bool) (s : State) : (setTxw q s).err = s.err := rfl
@[simp] theorem setTxw_cpValid (q : Bool) (s : State) : (setTxw q s).cpValid = s.cpValid := rfl
@[simp] theorem setTxw_cpCode (q : Bool) (s : State) : (setTxw q s).cpCode = s.cpCode := rfl
@[simp] theorem setTxw_txState (q : Bool) (s : State) : (setTxw q s).txState = s.txState := rfl
@[simp] theorem setTxw_txIdx (q : Bool) (s : State) : (setTxw q s).txIdx = s.txIdx := rfl
@[simp] theorem setTxw_txb (q : Bool) (s : State) : (setTxw q s).txb = s.txb := rfl
@[simp] theorem setTxw_ctCnt (q : Bool) (s : State) : (setTxw q s).ctCnt = s.ctCnt := rfl
@[simp] theorem setTxw_wtCnt (q : Bool) (s : State) : (setTxw q s).wtCnt = s.wtCnt := rfl
@[simp] theorem setTxw_pdataO (q : Bool) (s : State) : (setTxw q s).pdataO = s.pdataO := rfl
@[simp] theorem setTxw_pdataOe (q : Bool) (s : State) : (setTxw q s).pdataOe = s.pdataOe := rfl
@[simp] theorem setTxw_inp (q : Bool) (s : State) : (setTxw q s).inp = s.inp := rfl
@[simp] theorem setTxw_net (q : Bool) (s : State) : (setTxw q s).net = s.net := rfl
@[simp] theorem setTxw_out (q : Bool) (s : State) : (setTxw q s).out = s.out := rfl

/-! ## `beginDecode` -/

@[simp] theorem beginDecode_variant (s : State) : (beginDecode s).variant = s.variant := rfl
@[simp] theorem beginDecode_stim (s : State) : (beginDecode s).stim = s.stim := rfl
@[simp] theorem beginDecode_drawn (s : State) : (beginDecode s).drawn = s.drawn := rfl
@[simp] theorem beginDecode_pclkQ (s : State) : (beginDecode s).pclkQ = s.pclkQ := rfl
@[simp] theorem beginDecode_w (s : State) : (beginDecode s).w = s.w := rfl
@[simp] theorem beginDecode_inside (s : State) : (beginDecode s).inside = s.inside := rfl
@[simp] theorem beginDecode_age (s : State) : (beginDecode s).age = s.age := rfl
@[simp] theorem beginDecode_txw (s : State) : (beginDecode s).txw = s.txw := rfl
@[simp] theorem beginDecode_fsValid (s : State) : (beginDecode s).fsValid = false := rfl
@[simp] theorem beginDecode_fs (s : State) : (beginDecode s).fs = s.fs := rfl
@[simp] theorem beginDecode_status (s : State) : (beginDecode s).status = s.status := rfl
@[simp] theorem beginDecode_err (s : State) : (beginDecode s).err = s.err := rfl
@[simp] theorem beginDecode_cpValid (s : State) : (beginDecode s).cpValid = s.cpValid := rfl
@[simp] theorem beginDecode_cpCode (s : State) : (beginDecode s).cpCode = s.cpCode := rfl
@[simp] theorem beginDecode_txState (s : State) : (beginDecode s).txState = s.txState := rfl
@[simp] theorem beginDecode_txIdx (s : State) : (beginDecode s).txIdx = s.txIdx := rfl
@[simp] theorem beginDecode_txb (s : State) : (beginDecode s).txb = s.txb := rfl
@[simp] theorem beginDecode_ctCnt (s : State) : (beginDecode s).ctCnt = s.ctCnt := rfl
@[simp] theorem beginDecode_wtCnt (s : State) : (beginDecode s).wtCnt = s.wtCnt := rfl
@[simp] theorem beginDecode_pdataO (s : State) : (beginDecode s).pdataO = s.pdataO := rfl
@[simp] theorem beginDecode_pdataOe (s : State) : (beginDecode s).pdataOe = s.pdataOe := rfl
@[simp] theorem beginDecode_inp (s : State) : (beginDecode s).inp = s.inp := rfl
@[simp] theorem beginDecode_net (s : State) : (beginDecode s).net = { s.net with decoding := true, dst := s.fs } := rfl
@[simp] theorem beginDecode_out (s : State) : (beginDecode s).out = s.out := rfl

/-! ## `setDst` -/

@[simp] theorem setDst_variant (d : Bits) (s : State) : (setDst d s).variant = s.variant := rfl
@[simp] theorem setDst_stim (d : Bits) (s : State) : (setDst d s).stim = s.stim := rfl
@[simp] theorem setDst_drawn (d : Bits) (s : State) : (setDst d s).drawn = s.drawn := rfl
@[simp] theorem setDst_pclkQ (d : Bits) (s : State) : (setDst d s).pclkQ = s.pclkQ := rfl
@[simp] theorem setDst_w (d : Bits) (s : State) : (setDst d s).w = s.w := rfl
@[simp] theorem setDst_inside (d : Bits) (s : State) : (setDst d s).inside = s.inside := rfl
@[simp] theorem setDst_age (d : Bits) (s : State) : (setDst d s).age = s.age := rfl
@[simp] theorem setDst_txw (d : Bits) (s : State) : (setDst d s).txw = s.txw := rfl
@[simp] theorem setDst_fsValid (d : Bits) (s : State) : (setDst d s).fsValid = s.fsValid := rfl
@[simp] theorem setDst_fs (d : Bits) (s : State) : (setDst d s).fs = s.fs := rfl
@[simp] theorem setDst_status (d : Bits) (s : State) : (setDst d s).status = s.status := rfl
@[simp] theorem setDst_err (d : Bits) (s : State) : (setDst d s).err = s.err := rfl
@[simp] theorem setDst_cpValid (d : Bits) (s : State) : (setDst d s).cpValid = s.cpValid := rfl
@[simp] theorem setDst_cpCode (d : Bits) (s : State) : (setDst d s).cpCode = s.cpCode := rfl
@[simp] theorem setDst_txState (d : Bits) (s : State) : (setDst d s).txState = s.txState := rfl
@[simp] theorem setDst_txIdx (d : Bits) (s : State) : (setDst d s).txIdx = s.txIdx := rfl
@[simp] theorem setDst_txb (d : Bits) (s : State) : (setDst d s).txb = s.txb := rfl
@[simp] theorem setDst_ctCnt (d : Bits) (s : State) : (setDst d s).ctCnt = s.ctCnt := rfl
@[simp] theorem setDst_wtCnt (d : Bits) (s : State) : (setDst d s).wtCnt = s.wtCnt := rfl
@[simp] theorem setDst_pdataO (d : Bits) (s : State) : (setDst d s).pdataO = s.pdataO := rfl
@[simp] theorem setDst_pdataOe (d : Bits) (s : State) : (setDst d s).pdataOe = s.pdataOe := rfl
@[simp] theorem setDst_inp (d : Bits) (s : State) : (setDst d s).inp = s.inp := rfl
@[simp] theorem setDst_net (d : Bits) (s : State) : (setDst d s).net = { s.net with dst := d } := rfl
@[simp] theorem setDst_out (d : Bits) (s : State) : (setDst d s).out = s.out := rfl

/-! ## `setReason` -/

@[simp] theorem setReason_variant (r : TrcReason) (s : State) : (setReason r s).variant = s.variant := rfl
@[simp] theorem setReason_stim (r : TrcReason) (s : State) : (setReason r s).stim = s.stim := rfl
@[simp] theorem setReason_drawn (r : TrcReason) (s : State) : (setReason r s).drawn = s.drawn := rfl
@[simp] theorem setReason_pclkQ (r : TrcReason) (s : State) : (setReason r s).pclkQ = s.pclkQ := rfl
@[simp] theorem setReason_w (r : TrcReason) (s : State) : (setReason r s).w = s.w := rfl
@[simp] theorem setReason_inside (r : TrcReason) (s : State) : (setReason r s).inside = s.inside := rfl
@[simp] theorem setReason_age (r : TrcReason) (s : State) : (setReason r s).age = s.age := rfl
@[simp] theorem setReason_txw (r : TrcReason) (s : State) : (setReason r s).txw = s.txw := rfl
@[simp] theorem setReason_fsValid (r : TrcReason) (s : State) : (setReason r s).fsValid = s.fsValid := rfl
@[simp] theorem setReason_fs (r : TrcReason) (s : State) : (setReason r s).fs = s.fs := rfl
@[simp] theorem setReason_status (r : TrcReason) (s : State) : (setReason r s).status = s.status := rfl
@[simp] theorem setReason_err (r : TrcReason) (s : State) : (setReason r s).err = s.err := rfl
@[simp] theorem setReason_cpValid (r : TrcReason) (s : State) : (setReason r s).cpValid = s.cpValid := rfl
@[simp] theorem setReason_cpCode (r : TrcReason) (s : State) : (setReason r s).cpCode = s.cpCode := rfl
@[simp] theorem setReason_txState (r : TrcReason) (s : State) : (setReason r s).txState = s.txState := rfl
@[simp] theorem setReason_txIdx (r : TrcReason) (s : State) : (setReason r s).txIdx = s.txIdx := rfl
@[simp] theorem setReason_txb (r : TrcReason) (s : State) : (setReason r s).txb = s.txb := rfl
@[simp] theorem setReason_ctCnt (r : TrcReason) (s : State) : (setReason r s).ctCnt = s.ctCnt := rfl
@[simp] theorem setReason_wtCnt (r : TrcReason) (s : State) : (setReason r s).wtCnt = s.wtCnt := rfl
@[simp] theorem setReason_pdataO (r : TrcReason) (s : State) : (setReason r s).pdataO = s.pdataO := rfl
@[simp] theorem setReason_pdataOe (r : TrcReason) (s : State) : (setReason r s).pdataOe = s.pdataOe := rfl
@[simp] theorem setReason_inp (r : TrcReason) (s : State) : (setReason r s).inp = s.inp := rfl
@[simp] theorem setReason_net (r : TrcReason) (s : State) : (setReason r s).net = { s.net with reason := r } := rfl
@[simp] theorem setReason_out (r : TrcReason) (s : State) : (setReason r s).out = s.out := rfl

/-! ## `setNext` -/

@[simp] theorem setNext_variant (st : AlarmStatus) (s : State) : (setNext st s).variant = s.variant := rfl
@[simp] theorem setNext_stim (st : AlarmStatus) (s : State) : (setNext st s).stim = s.stim := rfl
@[simp] theorem setNext_drawn (st : AlarmStatus) (s : State) : (setNext st s).drawn = s.drawn := rfl
@[simp] theorem setNext_pclkQ (st : AlarmStatus) (s : State) : (setNext st s).pclkQ = s.pclkQ := rfl
@[simp] theorem setNext_w (st : AlarmStatus) (s : State) : (setNext st s).w = s.w := rfl
@[simp] theorem setNext_inside (st : AlarmStatus) (s : State) : (setNext st s).inside = s.inside := rfl
@[simp] theorem setNext_age (st : AlarmStatus) (s : State) : (setNext st s).age = s.age := rfl
@[simp] theorem setNext_txw (st : AlarmStatus) (s : State) : (setNext st s).txw = s.txw := rfl
@[simp] theorem setNext_fsValid (st : AlarmStatus) (s : State) : (setNext st s).fsValid = s.fsValid := rfl
@[simp] theorem setNext_fs (st : AlarmStatus) (s : State) : (setNext st s).fs = s.fs := rfl
@[simp] theorem setNext_status (st : AlarmStatus) (s : State) : (setNext st s).status = s.status := rfl
@[simp] theorem setNext_err (st : AlarmStatus) (s : State) : (setNext st s).err = s.err := rfl
@[simp] theorem setNext_cpValid (st : AlarmStatus) (s : State) : (setNext st s).cpValid = s.cpValid := rfl
@[simp] theorem setNext_cpCode (st : AlarmStatus) (s : State) : (setNext st s).cpCode = s.cpCode := rfl
@[simp] theorem setNext_txState (st : AlarmStatus) (s : State) : (setNext st s).txState = s.txState := rfl
@[simp] theorem setNext_txIdx (st : AlarmStatus) (s : State) : (setNext st s).txIdx = s.txIdx := rfl
@[simp] theorem setNext_txb (st : AlarmStatus) (s : State) : (setNext st s).txb = s.txb := rfl
@[simp] theorem setNext_ctCnt (st : AlarmStatus) (s : State) : (setNext st s).ctCnt = s.ctCnt := rfl
@[simp] theorem setNext_wtCnt (st : AlarmStatus) (s : State) : (setNext st s).wtCnt = s.wtCnt := rfl
@[simp] theorem setNext_pdataO (st : AlarmStatus) (s : State) : (setNext st s).pdataO = s.pdataO := rfl
@[simp] theorem setNext_pdataOe (st : AlarmStatus) (s : State) : (setNext st s).pdataOe = s.pdataOe := rfl
@[simp] theorem setNext_inp (st : AlarmStatus) (s : State) : (setNext st s).inp = s.inp := rfl
@[simp] theorem setNext_net (st : AlarmStatus) (s : State) : (setNext st s).net = { s.net with nextStatus := st } := rfl
@[simp] theorem setNext_out (st : AlarmStatus) (s : State) : (setNext st s).out = s.out := rfl

/-! ## `setResult` -/

@[simp] theorem setResult_variant (b : Bits) (s : State) : (setResult b s).variant = s.variant := rfl
@[simp] theorem setResult_stim (b : Bits) (s : State) : (setResult b s).stim = s.stim := rfl
@[simp] theorem setResult_drawn (b : Bits) (s : State) : (setResult b s).drawn = s.drawn := rfl
@[simp] theorem setResult_pclkQ (b : Bits) (s : State) : (setResult b s).pclkQ = s.pclkQ := rfl
@[simp] theorem setResult_w (b : Bits) (s : State) : (setResult b s).w = s.w := rfl
@[simp] theorem setResult_inside (b : Bits) (s : State) : (setResult b s).inside = s.inside := rfl
@[simp] theorem setResult_age (b : Bits) (s : State) : (setResult b s).age = s.age := rfl
@[simp] theorem setResult_txw (b : Bits) (s : State) : (setResult b s).txw = s.txw := rfl
@[simp] theorem setResult_fsValid (b : Bits) (s : State) : (setResult b s).fsValid = s.fsValid := rfl
@[simp] theorem setResult_fs (b : Bits) (s : State) : (setResult b s).fs = s.fs := rfl
@[simp] theorem setResult_status (b : Bits) (s : State) : (setResult b s).status = s.status := rfl
@[simp] theorem setResult_err (b : Bits) (s : State) : (setResult b s).err = s.err := rfl
@[simp] theorem setResult_cpValid (b : Bits) (s : State) : (setResult b s).cpValid = s.cpValid := rfl
@[simp] theorem setResult_cpCode (b : Bits) (s : State) : (setResult b s).cpCode = s.cpCode := rfl
@[simp] theorem setResult_txState (b : Bits) (s : State) : (setResult b s).txState = s.txState := rfl
@[simp] theorem setResult_txIdx (b : Bits) (s : State) : (setResult b s).txIdx = s.txIdx := rfl
@[simp] theorem setResult_txb (b : Bits) (s : State) : (setResult b s).txb = s.txb := rfl
@[simp] theorem setResult_ctCnt (b : Bits) (s : State) : (setResult b s).ctCnt = s.ctCnt := rfl
@[simp] theorem setResult_wtCnt (b : Bits) (s : State) : (setResult b s).wtCnt = s.wtCnt := rfl
@[simp] theorem setResult_pdataO (b : Bits) (s : State) : (setResult b s).pdataO = s.pdataO := rfl
@[simp] theorem setResult_pdataOe (b : Bits) (s : State) : (setResult b s).pdataOe = s.pdataOe := rfl
@[simp] theorem setResult_inp (b : Bits) (s : State) : (setResult b s).inp = s.inp := rfl
@[simp] theorem setResult_net (b : Bits) (s : State) : (setResult b s).net = { s.net with result := b } := rfl
@[simp] theorem setResult_out (b : Bits) (s : State) : (setResult b s).out = s.out := rfl

/-! ## `setStatus` -/

@[simp] theorem setStatus_variant (st : AlarmStatus) (s : State) : (setStatus st s).variant = s.variant := rfl
@[simp] theorem setStatus_stim (st : AlarmStatus) (s : State) : (setStatus st s).stim = s.stim := rfl
@[simp] theorem setStatus_drawn (st : AlarmStatus) (s : State) : (setStatus st s).drawn = s.drawn := rfl
@[simp] theorem setStatus_pclkQ (st : AlarmStatus) (s : State) : (setStatus st s).pclkQ = s.pclkQ := rfl
@[simp] theorem setStatus_w (st : AlarmStatus) (s : State) : (setStatus st s).w = s.w := rfl
@[simp] theorem setStatus_inside (st : AlarmStatus) (s : State) : (setStatus st s).inside = s.inside := rfl
@[simp] theorem setStatus_age (st : AlarmStatus) (s : State) : (setStatus st s).age = s.age := rfl
@[simp] theorem setStatus_txw (st : AlarmStatus) (s : State) : (setStatus st s).txw = s.txw := rfl
@[simp] theorem setStatus_fsValid (st : AlarmStatus) (s : State) : (setStatus st s).fsValid = s.fsValid := rfl
@[simp] theorem setStatus_fs (st : AlarmStatus) (s : State) : (setStatus st s).fs = s.fs := rfl
@[simp] theorem setStatus_status (st : AlarmStatus) (s : State) : (setStatus st s).status = st := rfl
@[simp] theorem setStatus_err (st : AlarmStatus) (s : State) : (setStatus st s).err = s.err := rfl
@[simp] theorem setStatus_cpValid (st : AlarmStatus) (s : State) : (setStatus st s).cpValid = s.cpValid := rfl
@[simp] theorem setStatus_cpCode (st : AlarmStatus) (s : State) : (setStatus st s).cpCode = s.cpCode := rfl
@[simp] theorem setStatus_txState (st : AlarmStatus) (s : State) : (setStatus st s).txState = s.txState := rfl
@[simp] theorem setStatus_txIdx (st : AlarmStatus) (s : State) : (setStatus st s).txIdx = s.txIdx := rfl
@[simp] theorem setStatus_txb (st : AlarmStatus) (s : State) : (setStatus st s).txb = s.txb := rfl
@[simp] theorem setStatus_ctCnt (st : AlarmStatus) (s : State) : (setStatus st s).ctCnt = s.ctCnt := rfl
@[simp] theorem setStatus_wtCnt (st : AlarmStatus) (s : State) : (setStatus st s).wtCnt = s.wtCnt := rfl
@[simp] theorem setStatus_pdataO (st : AlarmStatus) (s : State) : (setStatus st s).pdataO = s.pdataO := rfl
@[simp] theorem setStatus_pdataOe (st : AlarmStatus) (s : State) : (setStatus st s).pdataOe = s.pdataOe := rfl
@[simp] theorem setStatus_inp (st : AlarmStatus) (s : State) : (setStatus st s).inp = s.inp := rfl
@[simp] theorem setStatus_net (st : AlarmStatus) (s : State) : (setStatus st s).net = s.net := rfl
@[simp] theorem setStatus_out (st : AlarmStatus) (s : State) : (setStatus st s).out = s.out := rfl

/-! ## `pulseCmdResp` -/

@[simp] theorem pulseCmdResp_variant (r : CmdResp) (s : State) : (pulseCmdResp r s).variant = s.variant := rfl
@[simp] theorem pulseCmdResp_stim (r : CmdResp) (s : State) : (pulseCmdResp r s).stim = s.stim := rfl
@[simp] theorem pulseCmdResp_drawn (r : CmdResp) (s : State) : (pulseCmdResp r s).drawn = s.drawn := rfl
@[simp] theorem pulseCmdResp_pclkQ (r : CmdResp) (s : State) : (pulseCmdResp r s).pclkQ = s.pclkQ := rfl
@[simp] theorem pulseCmdResp_w (r : CmdResp) (s : State) : (pulseCmdResp r s).w = s.w := rfl
@[simp] theorem pulseCmdResp_inside (r : CmdResp) (s : State) : (pulseCmdResp r s).inside = s.inside := rfl
@[simp] theorem pulseCmdResp_age (r : CmdResp) (s : State) : (pulseCmdResp r s).age = s.age := rfl
@[simp] theorem pulseCmdResp_txw (r : CmdResp) (s : State) : (pulseCmdResp r s).txw = s.txw := rfl
@[simp] theorem pulseCmdResp_fsValid (r : CmdResp) (s : State) : (pulseCmdResp r s).fsValid = s.fsValid := rfl
@[simp] theorem pulseCmdResp_fs (r : CmdResp) (s : State) : (pulseCmdResp r s).fs = s.fs := rfl
@[simp] theorem pulseCmdResp_status (r : CmdResp) (s : State) : (pulseCmdResp r s).status = s.status := rfl
@[simp] theorem pulseCmdResp_err (r : CmdResp) (s : State) : (pulseCmdResp r s).err = s.err := rfl
@[simp] theorem pulseCmdResp_cpValid (r : CmdResp) (s : State) : (pulseCmdResp r s).cpValid = s.cpValid := rfl
@[simp] theorem pulseCmdResp_cpCode (r : CmdResp) (s : State) : (pulseCmdResp r s).cpCode = s.cpCode := rfl
@[simp] theorem pulseCmdResp_txState (r : CmdResp) (s : State) : (pulseCmdResp r s).txState = s.txState := rfl
@[simp] theorem pulseCmdResp_txIdx (r : CmdResp) (s : State) : (pulseCmdResp r s).txIdx = s.txIdx := rfl
@[simp] theorem pulseCmdResp_txb (r : CmdResp) (s : State) : (pulseCmdResp r s).txb = s.txb := rfl
@[simp] theorem pulseCmdResp_ctCnt (r : CmdResp) (s : State) : (pulseCmdResp r s).ctCnt = s.ctCnt := rfl
@[simp] theorem pulseCmdResp_wtCnt (r : CmdResp) (s : State) : (pulseCmdResp r s).wtCnt = s.wtCnt := rfl
@[simp] theorem pulseCmdResp_pdataO (r : CmdResp) (s : State) : (pulseCmdResp r s).pdataO = s.pdataO := rfl
@[simp] theorem pulseCmdResp_pdataOe (r : CmdResp) (s : State) : (pulseCmdResp r s).pdataOe = s.pdataOe := rfl
@[simp] theorem pulseCmdResp_inp (r : CmdResp) (s : State) : (pulseCmdResp r s).inp = s.inp := rfl
@[simp] theorem pulseCmdResp_net (r : CmdResp) (s : State) : (pulseCmdResp r s).net = s.net := rfl
@[simp] theorem pulseCmdResp_out (r : CmdResp) (s : State) : (pulseCmdResp r s).out = { s.out with cmdResp := r } := rfl

/-! ## `pulseTxDone` -/

@[simp] theorem pulseTxDone_variant (r : TxResult) (s : State) : (pulseTxDone r s).variant = s.variant := rfl
@[simp] theorem pulseTxDone_stim (r : TxResult) (s : State) : (pulseTxDone r s).stim = s.stim := rfl
@[simp] theorem pulseTxDone_drawn (r : TxResult) (s : State) : (pulseTxDone r s).drawn = s.drawn := rfl
@[simp] theorem pulseTxDone_pclkQ (r : TxResult) (s : State) : (pulseTxDone r s).pclkQ = s.pclkQ := rfl
@[simp] theorem pulseTxDone_w (r : TxResult) (s : State) : (pulseTxDone r s).w = s.w := rfl
@[simp] theorem pulseTxDone_inside (r : TxResult) (s : State) : (pulseTxDone r s).inside = s.inside := rfl
@[simp] theorem pulseTxDone_age (r : TxResult) (s : State) : (pulseTxDone r s).age = s.age := rfl
@[simp] theorem pulseTxDone_txw (r : TxResult) (s : State) : (pulseTxDone r s).txw = s.txw := rfl
@[simp] theorem pulseTxDone_fsValid (r : TxResult) (s : State) : (pulseTxDone r s).fsValid = s.fsValid := rfl
@[simp] theorem pulseTxDone_fs (r : TxResult) (s : State) : (pulseTxDone r s).fs = s.fs := rfl
@[simp] theorem pulseTxDone_status (r : TxResult) (s : State) : (pulseTxDone r s).status = s.status := rfl
@[simp] theorem pulseTxDone_err (r : TxResult) (s : State) : (pulseTxDone r s).err = s.err := rfl
@[simp] theorem pulseTxDone_cpValid (r : TxResult) (s : State) : (pulseTxDone r s).cpValid = s.cpValid := rfl
@[simp] theorem pulseTxDone_cpCode (r : TxResult) (s : State) : (pulseTxDone r s).cpCode = s.cpCode := rfl
@[simp] theorem pulseTxDone_txState (r : TxResult) (s : State) : (pulseTxDone r s).txState = s.txState := rfl
@[simp] theorem pulseTxDone_txIdx (r : TxResult) (s : State) : (pulseTxDone r s).txIdx = s.txIdx := rfl
@[simp] theorem pulseTxDone_txb (r : TxResult) (s : State) : (pulseTxDone r s).txb = s.txb := rfl
@[simp] theorem pulseTxDone_ctCnt (r : TxResult) (s : State) : (pulseTxDone r s).ctCnt = s.ctCnt := rfl
@[simp] theorem pulseTxDone_wtCnt (r : TxResult) (s : State) : (pulseTxDone r s).wtCnt = s.wtCnt := rfl
@[simp] theorem pulseTxDone_pdataO (r : TxResult) (s : State) : (pulseTxDone r s).pdataO = s.pdataO := rfl
@[simp] theorem pulseTxDone_pdataOe (r : TxResult) (s : State) : (pulseTxDone r s).pdataOe = s.pdataOe := rfl
@[simp] theorem pulseTxDone_inp (r : TxResult) (s : State) : (pulseTxDone r s).inp = s.inp := rfl
@[simp] theorem pulseTxDone_net (r : TxResult) (s : State) : (pulseTxDone r s).net = s.net := rfl
@[simp] theorem pulseTxDone_out (r : TxResult) (s : State) : (pulseTxDone r s).out = { s.out with txDone := some r } := rfl

/-! ## `pulseZone` -/

@[simp] theorem pulseZone_variant (m : ZoneMasks) (s : State) : (pulseZone m s).variant = s.variant := rfl
@[simp] theorem pulseZone_stim (m : ZoneMasks) (s : State) : (pulseZone m s).stim = s.stim := rfl
@[simp] theorem pulseZone_drawn (m : ZoneMasks) (s : State) : (pulseZone m s).drawn = s.drawn := rfl
@[simp] theorem pulseZone_pclkQ (m : ZoneMasks) (s : State) : (pulseZone m s).pclkQ = s.pclkQ := rfl
@[simp] theorem pulseZone_w (m : ZoneMasks) (s : State) : (pulseZone m s).w = s.w := rfl
@[simp] theorem pulseZone_inside (m : ZoneMasks) (s : State) : (pulseZone m s).inside = s.inside := rfl
@[simp] theorem pulseZone_age (m : ZoneMasks) (s : State) : (pulseZone m s).age = s.age := rfl
@[simp] theorem pulseZone_txw (m : ZoneMasks) (s : State) : (pulseZone m s).txw = s.txw := rfl
@[simp] theorem pulseZone_fsValid (m : ZoneMasks) (s : State) : (pulseZone m s).fsValid = s.fsValid := rfl
@[simp] theorem pulseZone_fs (m : ZoneMasks) (s : State) : (pulseZone m s).fs = s.fs := rfl
@[simp] theorem pulseZone_status (m : ZoneMasks) (s : State) : (pulseZone m s).status = s.status := rfl
@[simp] theorem pulseZone_err (m : ZoneMasks) (s : State) : (pulseZone m s).err = s.err := rfl
@[simp] theorem pulseZone_cpValid (m : ZoneMasks) (s : State) : (pulseZone m s).cpValid = s.cpValid := rfl
@[simp] theorem pulseZone_cpCode (m : ZoneMasks) (s : State) : (pulseZone m s).cpCode = s.cpCode := rfl
@[simp] theorem pulseZone_txState (m : ZoneMasks) (s : State) : (pulseZone m s).txState = s.txState := rfl
@[simp] theorem pulseZone_txIdx (m : ZoneMasks) (s : State) : (pulseZone m s).txIdx = s.txIdx := rfl
@[simp] theorem pulseZone_txb (m : ZoneMasks) (s : State) : (pulseZone m s).txb = s.txb := rfl
@[simp] theorem pulseZone_ctCnt (m : ZoneMasks) (s : State) : (pulseZone m s).ctCnt = s.ctCnt := rfl
@[simp] theorem pulseZone_wtCnt (m : ZoneMasks) (s : State) : (pulseZone m s).wtCnt = s.wtCnt := rfl
@[simp] theorem pulseZone_pdataO (m : ZoneMasks) (s : State) : (pulseZone m s).pdataO = s.pdataO := rfl
@[simp] theorem pulseZone_pdataOe (m : ZoneMasks) (s : State) : (pulseZone m s).pdataOe = s.pdataOe := rfl
@[simp] theorem pulseZone_inp (m : ZoneMasks) (s : State) : (pulseZone m s).inp = s.inp := rfl
@[simp] theorem pulseZone_net (m : ZoneMasks) (s : State) : (pulseZone m s).net = s.net := rfl
@[simp] theorem pulseZone_out (m : ZoneMasks) (s : State) : (pulseZone m s).out = { s.out with zone := some m } := rfl

/-! ## `pulseStatus` -/

@[simp] theorem pulseStatus_variant (st : AlarmStatus) (s : State) : (pulseStatus st s).variant = s.variant := rfl
@[simp] theorem pulseStatus_stim (st : AlarmStatus) (s : State) : (pulseStatus st s).stim = s.stim := rfl
@[simp] theorem pulseStatus_drawn (st : AlarmStatus) (s : State) : (pulseStatus st s).drawn = s.drawn := rfl
@[simp] theorem pulseStatus_pclkQ (st : AlarmStatus) (s : State) : (pulseStatus st s).pclkQ = s.pclkQ := rfl
@[simp] theorem pulseStatus_w (st : AlarmStatus) (s : State) : (pulseStatus st s).w = s.w := rfl
@[simp] theorem pulseStatus_inside (st : AlarmStatus) (s : State) : (pulseStatus st s).inside = s.inside := rfl
@[simp] theorem pulseStatus_age (st : AlarmStatus) (s : State) : (pulseStatus st s).age = s.age := rfl
@[simp] theorem pulseStatus_txw (st : AlarmStatus) (s : State) : (pulseStatus st s).txw = s.txw := rfl
@[simp] theorem pulseStatus_fsValid (st : AlarmStatus) (s : State) : (pulseStatus st s).fsValid = s.fsValid := rfl
@[simp] theorem pulseStatus_fs (st : AlarmStatus) (s : State) : (pulseStatus st s).fs = s.fs := rfl
@[simp] theorem pulseStatus_status (st : AlarmStatus) (s : State) : (pulseStatus st s).status = s.status := rfl
@[simp] theorem pulseStatus_err (st : AlarmStatus) (s : State) : (pulseStatus st s).err = s.err := rfl
@[simp] theorem pulseStatus_cpValid (st : AlarmStatus) (s : State) : (pulseStatus st s).cpValid = s.cpValid := rfl
@[simp] theorem pulseStatus_cpCode (st : AlarmStatus) (s : State) : (pulseStatus st s).cpCode = s.cpCode := rfl
@[simp] theorem pulseStatus_txState (st : AlarmStatus) (s : State) : (pulseStatus st s).txState = s.txState := rfl
@[simp] theorem pulseStatus_txIdx (st : AlarmStatus) (s : State) : (pulseStatus st s).txIdx = s.txIdx := rfl
@[simp] theorem pulseStatus_txb (st : AlarmStatus) (s : State) : (pulseStatus st s).txb = s.txb := rfl
@[simp] theorem pulseStatus_ctCnt (st : AlarmStatus) (s : State) : (pulseStatus st s).ctCnt = s.ctCnt := rfl
@[simp] theorem pulseStatus_wtCnt (st : AlarmStatus) (s : State) : (pulseStatus st s).wtCnt = s.wtCnt := rfl
@[simp] theorem pulseStatus_pdataO (st : AlarmStatus) (s : State) : (pulseStatus st s).pdataO = s.pdataO := rfl
@[simp] theorem pulseStatus_pdataOe (st : AlarmStatus) (s : State) : (pulseStatus st s).pdataOe = s.pdataOe := rfl
@[simp] theorem pulseStatus_inp (st : AlarmStatus) (s : State) : (pulseStatus st s).inp = s.inp := rfl
@[simp] theorem pulseStatus_net (st : AlarmStatus) (s : State) : (pulseStatus st s).net = s.net := rfl
@[simp] theorem pulseStatus_out (st : AlarmStatus) (s : State) : (pulseStatus st s).out = { s.out with st := some st } := rfl

/-! ## `pulseStore` -/

@[simp] theorem pulseStore_variant (b : Byte) (s : State) : (pulseStore b s).variant = s.variant := rfl
@[simp] theorem pulseStore_stim (b : Byte) (s : State) : (pulseStore b s).stim = s.stim := rfl
@[simp] theorem pulseStore_drawn (b : Byte) (s : State) : (pulseStore b s).drawn = s.drawn := rfl
@[simp] theorem pulseStore_pclkQ (b : Byte) (s : State) : (pulseStore b s).pclkQ = s.pclkQ := rfl
@[simp] theorem pulseStore_w (b : Byte) (s : State) : (pulseStore b s).w = s.w := rfl
@[simp] theorem pulseStore_inside (b : Byte) (s : State) : (pulseStore b s).inside = s.inside := rfl
@[simp] theorem pulseStore_age (b : Byte) (s : State) : (pulseStore b s).age = s.age := rfl
@[simp] theorem pulseStore_txw (b : Byte) (s : State) : (pulseStore b s).txw = s.txw := rfl
@[simp] theorem pulseStore_fsValid (b : Byte) (s : State) : (pulseStore b s).fsValid = s.fsValid := rfl
@[simp] theorem pulseStore_fs (b : Byte) (s : State) : (pulseStore b s).fs = s.fs := rfl
@[simp] theorem pulseStore_status (b : Byte) (s : State) : (pulseStore b s).status = s.status := rfl
@[simp] theorem pulseStore_err (b : Byte) (s : State) : (pulseStore b s).err = s.err := rfl
@[simp] theorem pulseStore_cpValid (b : Byte) (s : State) : (pulseStore b s).cpValid = s.cpValid := rfl
@[simp] theorem pulseStore_cpCode (b : Byte) (s : State) : (pulseStore b s).cpCode = s.cpCode := rfl
@[simp] theorem pulseStore_txState (b : Byte) (s : State) : (pulseStore b s).txState = s.txState := rfl
@[simp] theorem pulseStore_txIdx (b : Byte) (s : State) : (pulseStore b s).txIdx = s.txIdx := rfl
@[simp] theorem pulseStore_txb (b : Byte) (s : State) : (pulseStore b s).txb = s.txb := rfl
@[simp] theorem pulseStore_ctCnt (b : Byte) (s : State) : (pulseStore b s).ctCnt = s.ctCnt := rfl
@[simp] theorem pulseStore_wtCnt (b : Byte) (s : State) : (pulseStore b s).wtCnt = s.wtCnt := rfl
@[simp] theorem pulseStore_pdataO (b : Byte) (s : State) : (pulseStore b s).pdataO = s.pdataO := rfl
@[simp] theorem pulseStore_pdataOe (b : Byte) (s : State) : (pulseStore b s).pdataOe = s.pdataOe := rfl
@[simp] theorem pulseStore_inp (b : Byte) (s : State) : (pulseStore b s).inp = s.inp := rfl
@[simp] theorem pulseStore_net (b : Byte) (s : State) : (pulseStore b s).net = s.net := rfl
@[simp] theorem pulseStore_out (b : Byte) (s : State) : (pulseStore b s).out = { s.out with store := some b } := rfl

/-! ## `pulseTrace` -/

@[simp] theorem pulseTrace_variant (r : TrcReason) (s : State) : (pulseTrace r s).variant = s.variant := rfl
@[simp] theorem pulseTrace_stim (r : TrcReason) (s : State) : (pulseTrace r s).stim = s.stim := rfl
@[simp] theorem pulseTrace_drawn (r : TrcReason) (s : State) : (pulseTrace r s).drawn = s.drawn := rfl
@[simp] theorem pulseTrace_pclkQ (r : TrcReason) (s : State) : (pulseTrace r s).pclkQ = s.pclkQ := rfl
@[simp] theorem pulseTrace_w (r : TrcReason) (s : State) : (pulseTrace r s).w = s.w := rfl
@[simp] theorem pulseTrace_inside (r : TrcReason) (s : State) : (pulseTrace r s).inside = s.inside := rfl
@[simp] theorem pulseTrace_age (r : TrcReason) (s : State) : (pulseTrace r s).age = s.age := rfl
@[simp] theorem pulseTrace_txw (r : TrcReason) (s : State) : (pulseTrace r s).txw = s.txw := rfl
@[simp] theorem pulseTrace_fsValid (r : TrcReason) (s : State) : (pulseTrace r s).fsValid = s.fsValid := rfl
@[simp] theorem pulseTrace_fs (r : TrcReason) (s : State) : (pulseTrace r s).fs = s.fs := rfl
@[simp] theorem pulseTrace_status (r : TrcReason) (s : State) : (pulseTrace r s).status = s.status := rfl
@[simp] theorem pulseTrace_err (r : TrcReason) (s : State) : (pulseTrace r s).err = s.err := rfl
@[simp] theorem pulseTrace_cpValid (r : TrcReason) (s : State) : (pulseTrace r s).cpValid = s.cpValid := rfl
@[simp] theorem pulseTrace_cpCode (r : TrcReason) (s : State) : (pulseTrace r s).cpCode = s.cpCode := rfl
@[simp] theorem pulseTrace_txState (r : TrcReason) (s : State) : (pulseTrace r s).txState = s.txState := rfl
@[simp] theorem pulseTrace_txIdx (r : TrcReason) (s : State) : (pulseTrace r s).txIdx = s.txIdx := rfl
@[simp] theorem pulseTrace_txb (r : TrcReason) (s : State) : (pulseTrace r s).txb = s.txb := rfl
@[simp] theorem pulseTrace_ctCnt (r : TrcReason) (s : State) : (pulseTrace r s).ctCnt = s.ctCnt := rfl
@[simp] theorem pulseTrace_wtCnt (r : TrcReason) (s : State) : (pulseTrace r s).wtCnt = s.wtCnt := rfl
@[simp] theorem pulseTrace_pdataO (r : TrcReason) (s : State) : (pulseTrace r s).pdataO = s.pdataO := rfl
@[simp] theorem pulseTrace_pdataOe (r : TrcReason) (s : State) : (pulseTrace r s).pdataOe = s.pdataOe := rfl
@[simp] theorem pulseTrace_inp (r : TrcReason) (s : State) : (pulseTrace r s).inp = s.inp := rfl
@[simp] theorem pulseTrace_net (r : TrcReason) (s : State) : (pulseTrace r s).net = s.net := rfl
@[simp] theorem pulseTrace_out (r : TrcReason) (s : State) : (pulseTrace r s).out = { s.out with trc := some { reason := r, raw := s.fs, dst := s.net.dst } } := rfl

/-! ## `acceptCommand` -/

@[simp] theorem acceptCommand_variant (code : Byte) (s : State) : (acceptCommand code s).variant = s.variant := rfl
@[simp] theorem acceptCommand_stim (code : Byte) (s : State) : (acceptCommand code s).stim = s.stim := rfl
@[simp] theorem acceptCommand_drawn (code : Byte) (s : State) : (acceptCommand code s).drawn = s.drawn := rfl
@[simp] theorem acceptCommand_pclkQ (code : Byte) (s : State) : (acceptCommand code s).pclkQ = s.pclkQ := rfl
@[simp] theorem acceptCommand_w (code : Byte) (s : State) : (acceptCommand code s).w = s.w := rfl
@[simp] theorem acceptCommand_inside (code : Byte) (s : State) : (acceptCommand code s).inside = s.inside := rfl
@[simp] theorem acceptCommand_age (code : Byte) (s : State) : (acceptCommand code s).age = s.age := rfl
@[simp] theorem acceptCommand_txw (code : Byte) (s : State) : (acceptCommand code s).txw = s.txw := rfl
@[simp] theorem acceptCommand_fsValid (code : Byte) (s : State) : (acceptCommand code s).fsValid = s.fsValid := rfl
@[simp] theorem acceptCommand_fs (code : Byte) (s : State) : (acceptCommand code s).fs = s.fs := rfl
@[simp] theorem acceptCommand_status (code : Byte) (s : State) : (acceptCommand code s).status = s.status := rfl
@[simp] theorem acceptCommand_err (code : Byte) (s : State) : (acceptCommand code s).err = s.err := rfl
@[simp] theorem acceptCommand_cpValid (code : Byte) (s : State) : (acceptCommand code s).cpValid = true := rfl
@[simp] theorem acceptCommand_cpCode (code : Byte) (s : State) : (acceptCommand code s).cpCode = code := rfl
@[simp] theorem acceptCommand_txState (code : Byte) (s : State) : (acceptCommand code s).txState = s.txState := rfl
@[simp] theorem acceptCommand_txIdx (code : Byte) (s : State) : (acceptCommand code s).txIdx = s.txIdx := rfl
@[simp] theorem acceptCommand_txb (code : Byte) (s : State) : (acceptCommand code s).txb = s.txb := rfl
@[simp] theorem acceptCommand_ctCnt (code : Byte) (s : State) : (acceptCommand code s).ctCnt = s.ctCnt := rfl
@[simp] theorem acceptCommand_wtCnt (code : Byte) (s : State) : (acceptCommand code s).wtCnt = 0 := rfl
@[simp] theorem acceptCommand_pdataO (code : Byte) (s : State) : (acceptCommand code s).pdataO = s.pdataO := rfl
@[simp] theorem acceptCommand_pdataOe (code : Byte) (s : State) : (acceptCommand code s).pdataOe = s.pdataOe := rfl
@[simp] theorem acceptCommand_inp (code : Byte) (s : State) : (acceptCommand code s).inp = s.inp := rfl
@[simp] theorem acceptCommand_net (code : Byte) (s : State) : (acceptCommand code s).net = s.net := rfl
@[simp] theorem acceptCommand_out (code : Byte) (s : State) : (acceptCommand code s).out = s.out := rfl

/-! ## `loadTx` -/

@[simp] theorem loadTx_variant (seq : Bits) (s : State) : (loadTx seq s).variant = s.variant := rfl
@[simp] theorem loadTx_stim (seq : Bits) (s : State) : (loadTx seq s).stim = s.stim := rfl
@[simp] theorem loadTx_drawn (seq : Bits) (s : State) : (loadTx seq s).drawn = s.drawn := rfl
@[simp] theorem loadTx_pclkQ (seq : Bits) (s : State) : (loadTx seq s).pclkQ = s.pclkQ := rfl
@[simp] theorem loadTx_w (seq : Bits) (s : State) : (loadTx seq s).w = s.w := rfl
@[simp] theorem loadTx_inside (seq : Bits) (s : State) : (loadTx seq s).inside = s.inside := rfl
@[simp] theorem loadTx_age (seq : Bits) (s : State) : (loadTx seq s).age = s.age := rfl
@[simp] theorem loadTx_txw (seq : Bits) (s : State) : (loadTx seq s).txw = s.txw := rfl
@[simp] theorem loadTx_fsValid (seq : Bits) (s : State) : (loadTx seq s).fsValid = s.fsValid := rfl
@[simp] theorem loadTx_fs (seq : Bits) (s : State) : (loadTx seq s).fs = s.fs := rfl
@[simp] theorem loadTx_status (seq : Bits) (s : State) : (loadTx seq s).status = s.status := rfl
@[simp] theorem loadTx_err (seq : Bits) (s : State) : (loadTx seq s).err = s.err := rfl
@[simp] theorem loadTx_cpValid (seq : Bits) (s : State) : (loadTx seq s).cpValid = false := rfl
@[simp] theorem loadTx_cpCode (seq : Bits) (s : State) : (loadTx seq s).cpCode = s.cpCode := rfl
@[simp] theorem loadTx_txState (seq : Bits) (s : State) : (loadTx seq s).txState = .waitLow := rfl
@[simp] theorem loadTx_txIdx (seq : Bits) (s : State) : (loadTx seq s).txIdx = 0 := rfl
@[simp] theorem loadTx_txb (seq : Bits) (s : State) : (loadTx seq s).txb = seq := rfl
@[simp] theorem loadTx_ctCnt (seq : Bits) (s : State) : (loadTx seq s).ctCnt = 0 := rfl
@[simp] theorem loadTx_wtCnt (seq : Bits) (s : State) : (loadTx seq s).wtCnt = 0 := rfl
@[simp] theorem loadTx_pdataO (seq : Bits) (s : State) : (loadTx seq s).pdataO = s.pdataO := rfl
@[simp] theorem loadTx_pdataOe (seq : Bits) (s : State) : (loadTx seq s).pdataOe = s.pdataOe := rfl
@[simp] theorem loadTx_inp (seq : Bits) (s : State) : (loadTx seq s).inp = s.inp := rfl
@[simp] theorem loadTx_net (seq : Bits) (s : State) : (loadTx seq s).net = s.net := rfl
@[simp] theorem loadTx_out (seq : Bits) (s : State) : (loadTx seq s).out = s.out := rfl

/-! ## `waitWindow` -/

@[simp] theorem waitWindow_variant (s : State) : (waitWindow s).variant = s.variant := rfl
@[simp] theorem waitWindow_stim (s : State) : (waitWindow s).stim = s.stim := rfl
@[simp] theorem waitWindow_drawn (s : State) : (waitWindow s).drawn = s.drawn := rfl
@[simp] theorem waitWindow_pclkQ (s : State) : (waitWindow s).pclkQ = s.pclkQ := rfl
@[simp] theorem waitWindow_w (s : State) : (waitWindow s).w = s.w := rfl
@[simp] theorem waitWindow_inside (s : State) : (waitWindow s).inside = s.inside := rfl
@[simp] theorem waitWindow_age (s : State) : (waitWindow s).age = s.age := rfl
@[simp] theorem waitWindow_txw (s : State) : (waitWindow s).txw = s.txw := rfl
@[simp] theorem waitWindow_fsValid (s : State) : (waitWindow s).fsValid = s.fsValid := rfl
@[simp] theorem waitWindow_fs (s : State) : (waitWindow s).fs = s.fs := rfl
@[simp] theorem waitWindow_status (s : State) : (waitWindow s).status = s.status := rfl
@[simp] theorem waitWindow_err (s : State) : (waitWindow s).err = s.err := rfl
@[simp] theorem waitWindow_cpValid (s : State) : (waitWindow s).cpValid = s.cpValid := rfl
@[simp] theorem waitWindow_cpCode (s : State) : (waitWindow s).cpCode = s.cpCode := rfl
@[simp] theorem waitWindow_txState (s : State) : (waitWindow s).txState = s.txState := rfl
@[simp] theorem waitWindow_txIdx (s : State) : (waitWindow s).txIdx = s.txIdx := rfl
@[simp] theorem waitWindow_txb (s : State) : (waitWindow s).txb = s.txb := rfl
@[simp] theorem waitWindow_ctCnt (s : State) : (waitWindow s).ctCnt = s.ctCnt := rfl
@[simp] theorem waitWindow_wtCnt (s : State) : (waitWindow s).wtCnt = s.wtCnt + 1 := rfl
@[simp] theorem waitWindow_pdataO (s : State) : (waitWindow s).pdataO = s.pdataO := rfl
@[simp] theorem waitWindow_pdataOe (s : State) : (waitWindow s).pdataOe = s.pdataOe := rfl
@[simp] theorem waitWindow_inp (s : State) : (waitWindow s).inp = s.inp := rfl
@[simp] theorem waitWindow_net (s : State) : (waitWindow s).net = s.net := rfl
@[simp] theorem waitWindow_out (s : State) : (waitWindow s).out = s.out := rfl

/-! ## `driveLine` -/

@[simp] theorem driveLine_variant (b : Bool) (s : State) : (driveLine b s).variant = s.variant := rfl
@[simp] theorem driveLine_stim (b : Bool) (s : State) : (driveLine b s).stim = s.stim := rfl
@[simp] theorem driveLine_drawn (b : Bool) (s : State) : (driveLine b s).drawn = s.drawn := rfl
@[simp] theorem driveLine_pclkQ (b : Bool) (s : State) : (driveLine b s).pclkQ = s.pclkQ := rfl
@[simp] theorem driveLine_w (b : Bool) (s : State) : (driveLine b s).w = s.w := rfl
@[simp] theorem driveLine_inside (b : Bool) (s : State) : (driveLine b s).inside = s.inside := rfl
@[simp] theorem driveLine_age (b : Bool) (s : State) : (driveLine b s).age = s.age := rfl
@[simp] theorem driveLine_txw (b : Bool) (s : State) : (driveLine b s).txw = s.txw := rfl
@[simp] theorem driveLine_fsValid (b : Bool) (s : State) : (driveLine b s).fsValid = s.fsValid := rfl
@[simp] theorem driveLine_fs (b : Bool) (s : State) : (driveLine b s).fs = s.fs := rfl
@[simp] theorem driveLine_status (b : Bool) (s : State) : (driveLine b s).status = s.status := rfl
@[simp] theorem driveLine_err (b : Bool) (s : State) : (driveLine b s).err = s.err := rfl
@[simp] theorem driveLine_cpValid (b : Bool) (s : State) : (driveLine b s).cpValid = s.cpValid := rfl
@[simp] theorem driveLine_cpCode (b : Bool) (s : State) : (driveLine b s).cpCode = s.cpCode := rfl
@[simp] theorem driveLine_txState (b : Bool) (s : State) : (driveLine b s).txState = .waitHigh := rfl
@[simp] theorem driveLine_txIdx (b : Bool) (s : State) : (driveLine b s).txIdx = s.txIdx := rfl
@[simp] theorem driveLine_txb (b : Bool) (s : State) : (driveLine b s).txb = s.txb := rfl
@[simp] theorem driveLine_ctCnt (b : Bool) (s : State) : (driveLine b s).ctCnt = 0 := rfl
@[simp] theorem driveLine_wtCnt (b : Bool) (s : State) : (driveLine b s).wtCnt = s.wtCnt := rfl
@[simp] theorem driveLine_pdataO (b : Bool) (s : State) : (driveLine b s).pdataO = b := rfl
@[simp] theorem driveLine_pdataOe (b : Bool) (s : State) : (driveLine b s).pdataOe = true := rfl
@[simp] theorem driveLine_inp (b : Bool) (s : State) : (driveLine b s).inp = s.inp := rfl
@[simp] theorem driveLine_net (b : Bool) (s : State) : (driveLine b s).net = s.net := rfl
@[simp] theorem driveLine_out (b : Bool) (s : State) : (driveLine b s).out = s.out := rfl

/-! ## `advanceTx` -/

@[simp] theorem advanceTx_variant (s : State) : (advanceTx s).variant = s.variant := rfl
@[simp] theorem advanceTx_stim (s : State) : (advanceTx s).stim = s.stim := rfl
@[simp] theorem advanceTx_drawn (s : State) : (advanceTx s).drawn = s.drawn := rfl
@[simp] theorem advanceTx_pclkQ (s : State) : (advanceTx s).pclkQ = s.pclkQ := rfl
@[simp] theorem advanceTx_w (s : State) : (advanceTx s).w = s.w := rfl
@[simp] theorem advanceTx_inside (s : State) : (advanceTx s).inside = s.inside := rfl
@[simp] theorem advanceTx_age (s : State) : (advanceTx s).age = s.age := rfl
@[simp] theorem advanceTx_txw (s : State) : (advanceTx s).txw = s.txw := rfl
@[simp] theorem advanceTx_fsValid (s : State) : (advanceTx s).fsValid = s.fsValid := rfl
@[simp] theorem advanceTx_fs (s : State) : (advanceTx s).fs = s.fs := rfl
@[simp] theorem advanceTx_status (s : State) : (advanceTx s).status = s.status := rfl
@[simp] theorem advanceTx_err (s : State) : (advanceTx s).err = s.err := rfl
@[simp] theorem advanceTx_cpValid (s : State) : (advanceTx s).cpValid = s.cpValid := rfl
@[simp] theorem advanceTx_cpCode (s : State) : (advanceTx s).cpCode = s.cpCode := rfl
@[simp] theorem advanceTx_txState (s : State) : (advanceTx s).txState = .waitLow := rfl
@[simp] theorem advanceTx_txIdx (s : State) : (advanceTx s).txIdx = s.txIdx + 1 := rfl
@[simp] theorem advanceTx_txb (s : State) : (advanceTx s).txb = s.txb := rfl
@[simp] theorem advanceTx_ctCnt (s : State) : (advanceTx s).ctCnt = 0 := rfl
@[simp] theorem advanceTx_wtCnt (s : State) : (advanceTx s).wtCnt = s.wtCnt := rfl
@[simp] theorem advanceTx_pdataO (s : State) : (advanceTx s).pdataO = s.pdataO := rfl
@[simp] theorem advanceTx_pdataOe (s : State) : (advanceTx s).pdataOe = s.pdataOe := rfl
@[simp] theorem advanceTx_inp (s : State) : (advanceTx s).inp = s.inp := rfl
@[simp] theorem advanceTx_net (s : State) : (advanceTx s).net = s.net := rfl
@[simp] theorem advanceTx_out (s : State) : (advanceTx s).out = s.out := rfl

/-! ## `releaseTx` -/

@[simp] theorem releaseTx_variant (s : State) : (releaseTx s).variant = s.variant := rfl
@[simp] theorem releaseTx_stim (s : State) : (releaseTx s).stim = s.stim := rfl
@[simp] theorem releaseTx_drawn (s : State) : (releaseTx s).drawn = s.drawn := rfl
@[simp] theorem releaseTx_pclkQ (s : State) : (releaseTx s).pclkQ = s.pclkQ := rfl
@[simp] theorem releaseTx_w (s : State) : (releaseTx s).w = s.w := rfl
@[simp] theorem releaseTx_inside (s : State) : (releaseTx s).inside = s.inside := rfl
@[simp] theorem releaseTx_age (s : State) : (releaseTx s).age = s.age := rfl
@[simp] theorem releaseTx_txw (s : State) : (releaseTx s).txw = s.txw := rfl
@[simp] theorem releaseTx_fsValid (s : State) : (releaseTx s).fsValid = s.fsValid := rfl
@[simp] theorem releaseTx_fs (s : State) : (releaseTx s).fs = s.fs := rfl
@[simp] theorem releaseTx_status (s : State) : (releaseTx s).status = s.status := rfl
@[simp] theorem releaseTx_err (s : State) : (releaseTx s).err = s.err := rfl
@[simp] theorem releaseTx_cpValid (s : State) : (releaseTx s).cpValid = s.cpValid := rfl
@[simp] theorem releaseTx_cpCode (s : State) : (releaseTx s).cpCode = s.cpCode := rfl
@[simp] theorem releaseTx_txState (s : State) : (releaseTx s).txState = .idle := rfl
@[simp] theorem releaseTx_txIdx (s : State) : (releaseTx s).txIdx = 0 := rfl
@[simp] theorem releaseTx_txb (s : State) : (releaseTx s).txb = [] := rfl
@[simp] theorem releaseTx_ctCnt (s : State) : (releaseTx s).ctCnt = 0 := rfl
@[simp] theorem releaseTx_wtCnt (s : State) : (releaseTx s).wtCnt = s.wtCnt := rfl
@[simp] theorem releaseTx_pdataO (s : State) : (releaseTx s).pdataO = false := rfl
@[simp] theorem releaseTx_pdataOe (s : State) : (releaseTx s).pdataOe = false := rfl
@[simp] theorem releaseTx_inp (s : State) : (releaseTx s).inp = s.inp := rfl
@[simp] theorem releaseTx_net (s : State) : (releaseTx s).net = s.net := rfl
@[simp] theorem releaseTx_out (s : State) : (releaseTx s).out = s.out := rfl

/-! ## `stallTx` -/

@[simp] theorem stallTx_variant (s : State) : (stallTx s).variant = s.variant := rfl
@[simp] theorem stallTx_stim (s : State) : (stallTx s).stim = s.stim := rfl
@[simp] theorem stallTx_drawn (s : State) : (stallTx s).drawn = s.drawn := rfl
@[simp] theorem stallTx_pclkQ (s : State) : (stallTx s).pclkQ = s.pclkQ := rfl
@[simp] theorem stallTx_w (s : State) : (stallTx s).w = s.w := rfl
@[simp] theorem stallTx_inside (s : State) : (stallTx s).inside = s.inside := rfl
@[simp] theorem stallTx_age (s : State) : (stallTx s).age = s.age := rfl
@[simp] theorem stallTx_txw (s : State) : (stallTx s).txw = s.txw := rfl
@[simp] theorem stallTx_fsValid (s : State) : (stallTx s).fsValid = s.fsValid := rfl
@[simp] theorem stallTx_fs (s : State) : (stallTx s).fs = s.fs := rfl
@[simp] theorem stallTx_status (s : State) : (stallTx s).status = s.status := rfl
@[simp] theorem stallTx_err (s : State) : (stallTx s).err = s.err := rfl
@[simp] theorem stallTx_cpValid (s : State) : (stallTx s).cpValid = s.cpValid := rfl
@[simp] theorem stallTx_cpCode (s : State) : (stallTx s).cpCode = s.cpCode := rfl
@[simp] theorem stallTx_txState (s : State) : (stallTx s).txState = s.txState := rfl
@[simp] theorem stallTx_txIdx (s : State) : (stallTx s).txIdx = s.txIdx := rfl
@[simp] theorem stallTx_txb (s : State) : (stallTx s).txb = s.txb := rfl
@[simp] theorem stallTx_ctCnt (s : State) : (stallTx s).ctCnt = s.ctCnt + 1 := rfl
@[simp] theorem stallTx_wtCnt (s : State) : (stallTx s).wtCnt = s.wtCnt := rfl
@[simp] theorem stallTx_pdataO (s : State) : (stallTx s).pdataO = s.pdataO := rfl
@[simp] theorem stallTx_pdataOe (s : State) : (stallTx s).pdataOe = s.pdataOe := rfl
@[simp] theorem stallTx_inp (s : State) : (stallTx s).inp = s.inp := rfl
@[simp] theorem stallTx_net (s : State) : (stallTx s).net = s.net := rfl
@[simp] theorem stallTx_out (s : State) : (stallTx s).out = s.out := rfl

/-! ## `setErr` -/

@[simp] theorem setErr_variant (bits : BitVec 4) (s : State) : (setErr bits s).variant = s.variant := rfl
@[simp] theorem setErr_stim (bits : BitVec 4) (s : State) : (setErr bits s).stim = s.stim := rfl
@[simp] theorem setErr_drawn (bits : BitVec 4) (s : State) : (setErr bits s).drawn = s.drawn := rfl
@[simp] theorem setErr_pclkQ (bits : BitVec 4) (s : State) : (setErr bits s).pclkQ = s.pclkQ := rfl
@[simp] theorem setErr_w (bits : BitVec 4) (s : State) : (setErr bits s).w = s.w := rfl
@[simp] theorem setErr_inside (bits : BitVec 4) (s : State) : (setErr bits s).inside = s.inside := rfl
@[simp] theorem setErr_age (bits : BitVec 4) (s : State) : (setErr bits s).age = s.age := rfl
@[simp] theorem setErr_txw (bits : BitVec 4) (s : State) : (setErr bits s).txw = s.txw := rfl
@[simp] theorem setErr_fsValid (bits : BitVec 4) (s : State) : (setErr bits s).fsValid = s.fsValid := rfl
@[simp] theorem setErr_fs (bits : BitVec 4) (s : State) : (setErr bits s).fs = s.fs := rfl
@[simp] theorem setErr_status (bits : BitVec 4) (s : State) : (setErr bits s).status = s.status := rfl
@[simp] theorem setErr_err (bits : BitVec 4) (s : State) : (setErr bits s).err = s.err ||| bits := rfl
@[simp] theorem setErr_cpValid (bits : BitVec 4) (s : State) : (setErr bits s).cpValid = s.cpValid := rfl
@[simp] theorem setErr_cpCode (bits : BitVec 4) (s : State) : (setErr bits s).cpCode = s.cpCode := rfl
@[simp] theorem setErr_txState (bits : BitVec 4) (s : State) : (setErr bits s).txState = s.txState := rfl
@[simp] theorem setErr_txIdx (bits : BitVec 4) (s : State) : (setErr bits s).txIdx = s.txIdx := rfl
@[simp] theorem setErr_txb (bits : BitVec 4) (s : State) : (setErr bits s).txb = s.txb := rfl
@[simp] theorem setErr_ctCnt (bits : BitVec 4) (s : State) : (setErr bits s).ctCnt = s.ctCnt := rfl
@[simp] theorem setErr_wtCnt (bits : BitVec 4) (s : State) : (setErr bits s).wtCnt = s.wtCnt := rfl
@[simp] theorem setErr_pdataO (bits : BitVec 4) (s : State) : (setErr bits s).pdataO = s.pdataO := rfl
@[simp] theorem setErr_pdataOe (bits : BitVec 4) (s : State) : (setErr bits s).pdataOe = s.pdataOe := rfl
@[simp] theorem setErr_inp (bits : BitVec 4) (s : State) : (setErr bits s).inp = s.inp := rfl
@[simp] theorem setErr_net (bits : BitVec 4) (s : State) : (setErr bits s).net = s.net := rfl
@[simp] theorem setErr_out (bits : BitVec 4) (s : State) : (setErr bits s).out = s.out := rfl

/-! ## `acknowledge` -/

@[simp] theorem acknowledge_variant (s : State) : (acknowledge s).variant = s.variant := rfl
@[simp] theorem acknowledge_stim (s : State) : (acknowledge s).stim = s.stim := rfl
@[simp] theorem acknowledge_drawn (s : State) : (acknowledge s).drawn = s.drawn := rfl
@[simp] theorem acknowledge_pclkQ (s : State) : (acknowledge s).pclkQ = s.pclkQ := rfl
@[simp] theorem acknowledge_w (s : State) : (acknowledge s).w = s.w := rfl
@[simp] theorem acknowledge_inside (s : State) : (acknowledge s).inside = s.inside := rfl
@[simp] theorem acknowledge_age (s : State) : (acknowledge s).age = s.age := rfl
@[simp] theorem acknowledge_txw (s : State) : (acknowledge s).txw = s.txw := rfl
@[simp] theorem acknowledge_fsValid (s : State) : (acknowledge s).fsValid = s.fsValid := rfl
@[simp] theorem acknowledge_fs (s : State) : (acknowledge s).fs = s.fs := rfl
@[simp] theorem acknowledge_status (s : State) : (acknowledge s).status = s.status := rfl
@[simp] theorem acknowledge_err (s : State) : (acknowledge s).err = 0 := rfl
@[simp] theorem acknowledge_cpValid (s : State) : (acknowledge s).cpValid = s.cpValid := rfl
@[simp] theorem acknowledge_cpCode (s : State) : (acknowledge s).cpCode = s.cpCode := rfl
@[simp] theorem acknowledge_txState (s : State) : (acknowledge s).txState = s.txState := rfl
@[simp] theorem acknowledge_txIdx (s : State) : (acknowledge s).txIdx = s.txIdx := rfl
@[simp] theorem acknowledge_txb (s : State) : (acknowledge s).txb = s.txb := rfl
@[simp] theorem acknowledge_ctCnt (s : State) : (acknowledge s).ctCnt = s.ctCnt := rfl
@[simp] theorem acknowledge_wtCnt (s : State) : (acknowledge s).wtCnt = s.wtCnt := rfl
@[simp] theorem acknowledge_pdataO (s : State) : (acknowledge s).pdataO = s.pdataO := rfl
@[simp] theorem acknowledge_pdataOe (s : State) : (acknowledge s).pdataOe = s.pdataOe := rfl
@[simp] theorem acknowledge_inp (s : State) : (acknowledge s).inp = s.inp := rfl
@[simp] theorem acknowledge_net (s : State) : (acknowledge s).net = s.net := rfl
@[simp] theorem acknowledge_out (s : State) : (acknowledge s).out = s.out := rfl

/-! ## `beginCycle` -/

@[simp] theorem beginCycle_variant (f : InWord) (s : State) : (beginCycle f s).variant = s.variant := rfl
@[simp] theorem beginCycle_stim (f : InWord) (s : State) : (beginCycle f s).stim = s.stim := rfl
@[simp] theorem beginCycle_drawn (f : InWord) (s : State) : (beginCycle f s).drawn = s.drawn := rfl
@[simp] theorem beginCycle_pclkQ (f : InWord) (s : State) : (beginCycle f s).pclkQ = s.pclkQ := rfl
@[simp] theorem beginCycle_w (f : InWord) (s : State) : (beginCycle f s).w = s.w := rfl
@[simp] theorem beginCycle_inside (f : InWord) (s : State) : (beginCycle f s).inside = s.inside := rfl
@[simp] theorem beginCycle_age (f : InWord) (s : State) : (beginCycle f s).age = s.age := rfl
@[simp] theorem beginCycle_txw (f : InWord) (s : State) : (beginCycle f s).txw = s.txw := rfl
@[simp] theorem beginCycle_fsValid (f : InWord) (s : State) : (beginCycle f s).fsValid = s.fsValid := rfl
@[simp] theorem beginCycle_fs (f : InWord) (s : State) : (beginCycle f s).fs = s.fs := rfl
@[simp] theorem beginCycle_status (f : InWord) (s : State) : (beginCycle f s).status = s.status := rfl
@[simp] theorem beginCycle_err (f : InWord) (s : State) : (beginCycle f s).err = s.err := rfl
@[simp] theorem beginCycle_cpValid (f : InWord) (s : State) : (beginCycle f s).cpValid = s.cpValid := rfl
@[simp] theorem beginCycle_cpCode (f : InWord) (s : State) : (beginCycle f s).cpCode = s.cpCode := rfl
@[simp] theorem beginCycle_txState (f : InWord) (s : State) : (beginCycle f s).txState = s.txState := rfl
@[simp] theorem beginCycle_txIdx (f : InWord) (s : State) : (beginCycle f s).txIdx = s.txIdx := rfl
@[simp] theorem beginCycle_txb (f : InWord) (s : State) : (beginCycle f s).txb = s.txb := rfl
@[simp] theorem beginCycle_ctCnt (f : InWord) (s : State) : (beginCycle f s).ctCnt = s.ctCnt := rfl
@[simp] theorem beginCycle_wtCnt (f : InWord) (s : State) : (beginCycle f s).wtCnt = s.wtCnt := rfl
@[simp] theorem beginCycle_pdataO (f : InWord) (s : State) : (beginCycle f s).pdataO = s.pdataO := rfl
@[simp] theorem beginCycle_pdataOe (f : InWord) (s : State) : (beginCycle f s).pdataOe = s.pdataOe := rfl
@[simp] theorem beginCycle_inp (f : InWord) (s : State) : (beginCycle f s).inp = f := rfl
@[simp] theorem beginCycle_net (f : InWord) (s : State) : (beginCycle f s).net = Nets.zero := rfl
@[simp] theorem beginCycle_out (f : InWord) (s : State) : (beginCycle f s).out = Pulses.zero := rfl

/-! ## `endCycle` -/

@[simp] theorem endCycle_variant (s : State) : (endCycle s).variant = s.variant := rfl
@[simp] theorem endCycle_stim (s : State) : (endCycle s).stim = s.stim := rfl
@[simp] theorem endCycle_drawn (s : State) : (endCycle s).drawn = s.drawn := rfl
@[simp] theorem endCycle_pclkQ (s : State) : (endCycle s).pclkQ = s.pclkQ := rfl
@[simp] theorem endCycle_w (s : State) : (endCycle s).w = s.w := rfl
@[simp] theorem endCycle_inside (s : State) : (endCycle s).inside = s.inside := rfl
@[simp] theorem endCycle_age (s : State) : (endCycle s).age = s.age := rfl
@[simp] theorem endCycle_txw (s : State) : (endCycle s).txw = s.txw := rfl
@[simp] theorem endCycle_fsValid (s : State) : (endCycle s).fsValid = s.fsValid := rfl
@[simp] theorem endCycle_fs (s : State) : (endCycle s).fs = s.fs := rfl
@[simp] theorem endCycle_status (s : State) : (endCycle s).status = s.status := rfl
@[simp] theorem endCycle_err (s : State) : (endCycle s).err = s.err := rfl
@[simp] theorem endCycle_cpValid (s : State) : (endCycle s).cpValid = s.cpValid := rfl
@[simp] theorem endCycle_cpCode (s : State) : (endCycle s).cpCode = s.cpCode := rfl
@[simp] theorem endCycle_txState (s : State) : (endCycle s).txState = s.txState := rfl
@[simp] theorem endCycle_txIdx (s : State) : (endCycle s).txIdx = s.txIdx := rfl
@[simp] theorem endCycle_txb (s : State) : (endCycle s).txb = s.txb := rfl
@[simp] theorem endCycle_ctCnt (s : State) : (endCycle s).ctCnt = s.ctCnt := rfl
@[simp] theorem endCycle_wtCnt (s : State) : (endCycle s).wtCnt = s.wtCnt := rfl
@[simp] theorem endCycle_pdataO (s : State) : (endCycle s).pdataO = s.pdataO := rfl
@[simp] theorem endCycle_pdataOe (s : State) : (endCycle s).pdataOe = s.pdataOe := rfl
@[simp] theorem endCycle_inp (s : State) : (endCycle s).inp = InWord.zero := rfl
@[simp] theorem endCycle_net (s : State) : (endCycle s).net = Nets.zero := rfl
@[simp] theorem endCycle_out (s : State) : (endCycle s).out = s.out := rfl

/-! ## `resetRegisters` -/

@[simp] theorem resetRegisters_variant (s : State) : (resetRegisters s).variant = s.variant := rfl
@[simp] theorem resetRegisters_stim (s : State) : (resetRegisters s).stim = s.stim := rfl
@[simp] theorem resetRegisters_drawn (s : State) : (resetRegisters s).drawn = s.drawn := rfl
@[simp] theorem resetRegisters_pclkQ (s : State) : (resetRegisters s).pclkQ = false := rfl
@[simp] theorem resetRegisters_w (s : State) : (resetRegisters s).w = [] := rfl
@[simp] theorem resetRegisters_inside (s : State) : (resetRegisters s).inside = false := rfl
@[simp] theorem resetRegisters_age (s : State) : (resetRegisters s).age = 0 := rfl
@[simp] theorem resetRegisters_txw (s : State) : (resetRegisters s).txw = false := rfl
@[simp] theorem resetRegisters_fsValid (s : State) : (resetRegisters s).fsValid = false := rfl
@[simp] theorem resetRegisters_fs (s : State) : (resetRegisters s).fs = [] := rfl
@[simp] theorem resetRegisters_status (s : State) : (resetRegisters s).status = s.status := rfl
@[simp] theorem resetRegisters_err (s : State) : (resetRegisters s).err = 0 := rfl
@[simp] theorem resetRegisters_cpValid (s : State) : (resetRegisters s).cpValid = false := rfl
@[simp] theorem resetRegisters_cpCode (s : State) : (resetRegisters s).cpCode = 0 := rfl
@[simp] theorem resetRegisters_txState (s : State) : (resetRegisters s).txState = .idle := rfl
@[simp] theorem resetRegisters_txIdx (s : State) : (resetRegisters s).txIdx = 0 := rfl
@[simp] theorem resetRegisters_txb (s : State) : (resetRegisters s).txb = [] := rfl
@[simp] theorem resetRegisters_ctCnt (s : State) : (resetRegisters s).ctCnt = 0 := rfl
@[simp] theorem resetRegisters_wtCnt (s : State) : (resetRegisters s).wtCnt = 0 := rfl
@[simp] theorem resetRegisters_pdataO (s : State) : (resetRegisters s).pdataO = false := rfl
@[simp] theorem resetRegisters_pdataOe (s : State) : (resetRegisters s).pdataOe = false := rfl
@[simp] theorem resetRegisters_inp (s : State) : (resetRegisters s).inp = s.inp := rfl
@[simp] theorem resetRegisters_net (s : State) : (resetRegisters s).net = s.net := rfl
@[simp] theorem resetRegisters_out (s : State) : (resetRegisters s).out = Pulses.zero := rfl

/-! ## `presentFrame` -/

@[simp] theorem presentFrame_variant (d : Bits) (s : State) : (presentFrame d s).variant = s.variant := rfl
@[simp] theorem presentFrame_stim (d : Bits) (s : State) : (presentFrame d s).stim = s.stim := rfl
@[simp] theorem presentFrame_drawn (d : Bits) (s : State) : (presentFrame d s).drawn = s.drawn := rfl
@[simp] theorem presentFrame_pclkQ (d : Bits) (s : State) : (presentFrame d s).pclkQ = s.pclkQ := rfl
@[simp] theorem presentFrame_w (d : Bits) (s : State) : (presentFrame d s).w = s.w := rfl
@[simp] theorem presentFrame_inside (d : Bits) (s : State) : (presentFrame d s).inside = s.inside := rfl
@[simp] theorem presentFrame_age (d : Bits) (s : State) : (presentFrame d s).age = s.age := rfl
@[simp] theorem presentFrame_txw (d : Bits) (s : State) : (presentFrame d s).txw = s.txw := rfl
@[simp] theorem presentFrame_fsValid (d : Bits) (s : State) : (presentFrame d s).fsValid = s.fsValid := rfl
@[simp] theorem presentFrame_fs (d : Bits) (s : State) : (presentFrame d s).fs = s.fs := rfl
@[simp] theorem presentFrame_status (d : Bits) (s : State) : (presentFrame d s).status = s.status := rfl
@[simp] theorem presentFrame_err (d : Bits) (s : State) : (presentFrame d s).err = s.err := rfl
@[simp] theorem presentFrame_cpValid (d : Bits) (s : State) : (presentFrame d s).cpValid = s.cpValid := rfl
@[simp] theorem presentFrame_cpCode (d : Bits) (s : State) : (presentFrame d s).cpCode = s.cpCode := rfl
@[simp] theorem presentFrame_txState (d : Bits) (s : State) : (presentFrame d s).txState = s.txState := rfl
@[simp] theorem presentFrame_txIdx (d : Bits) (s : State) : (presentFrame d s).txIdx = s.txIdx := rfl
@[simp] theorem presentFrame_txb (d : Bits) (s : State) : (presentFrame d s).txb = s.txb := rfl
@[simp] theorem presentFrame_ctCnt (d : Bits) (s : State) : (presentFrame d s).ctCnt = s.ctCnt := rfl
@[simp] theorem presentFrame_wtCnt (d : Bits) (s : State) : (presentFrame d s).wtCnt = s.wtCnt := rfl
@[simp] theorem presentFrame_pdataO (d : Bits) (s : State) : (presentFrame d s).pdataO = s.pdataO := rfl
@[simp] theorem presentFrame_pdataOe (d : Bits) (s : State) : (presentFrame d s).pdataOe = s.pdataOe := rfl
@[simp] theorem presentFrame_inp (d : Bits) (s : State) : (presentFrame d s).inp = s.inp := rfl
@[simp] theorem presentFrame_net (d : Bits) (s : State) : (presentFrame d s).net = { s.net with decoding := true, dst := d } := rfl
@[simp] theorem presentFrame_out (d : Bits) (s : State) : (presentFrame d s).out = s.out := rfl

/-! ## `raise`: the entry actions of each exception as updates -/

@[simp] theorem raise_malformedFrame (s : State) : raise .malformedFrame s = setReason .notMultipleOf8 { s with fsValid := false } := rfl
@[simp] theorem raise_unexpectedLength (s : State) : raise .unexpectedLength s = setReason .not72 { s with fsValid := false } := rfl
@[simp] theorem raise_lostSync (s : State) : raise .lostSync s = { s with inside := false, age := -1 } := rfl
@[simp] theorem raise_clockTimeout (s : State) : raise .clockTimeout s = pulseTxDone .clockTimeout (setErr 0b0001 (releaseTx s)) := rfl
@[simp] theorem raise_windowTimeout (s : State) : raise .windowTimeout s = pulseTxDone .windowTimeout (setErr 0b0010 { s with cpValid := false, wtCnt := 0 }) := rfl
@[simp] theorem raise_busy (s : State) : raise .busy s = pulseCmdResp .busy s := rfl
@[simp] theorem raise_storeFail (s : State) : raise .storeFail s = setErr 0b0100 s := rfl
@[simp] theorem raise_oversizeFrame (s : State) : raise .oversizeFrame s = setErr 0b1000 s := rfl

end Sys2Proof.Machine
end

