-- ==== Sys2Proof/Laws/Ops.lean ====
section
/-! SUPPORT. What each shared operation can do, said once: sequencing, selection, the reads and the append of the bit memories,
the words of a stimulus. -/

namespace Sys2Proof.Machine

/-! ## Sequencing -/

@[simp] theorem andThen_next (s : State) (f : State → Result) : andThen (.next s) f = f s := rfl
@[simp] theorem andThen_fault (e : Fault) (f : State → Result) : andThen (.fault e) f = .fault e := rfl
@[simp] theorem andThen_refused (e : Refusal) (f : State → Result) : andThen (.refused e) f = .refused e := rfl

/-- `andThen` answers a next state only through a next state of its first part. -/
theorem andThen_eq_next {r : Result} {f : State → Result} {t : State} :
    andThen r f = .next t ↔ ∃ s, r = .next s ∧ f s = .next t := by
  cases r <;> simp [andThen]

theorem andThen_assoc (r : Result) (f g : State → Result) :
    andThen (andThen r f) g = andThen r fun s => andThen (f s) g := by
  cases r <;> rfl

@[simp] theorem runAll_nil (s : State) : runAll [] s = .next s := rfl
@[simp] theorem runAll_cons (f : State → Result) (fs : List (State → Result)) (s : State) :
    runAll (f :: fs) s = andThen (f s) (runAll fs) := rfl

theorem runAll_append (fs gs : List (State → Result)) (s : State) :
    runAll (fs ++ gs) s = andThen (runAll fs s) (runAll gs) := by
  induction fs generalizing s with
  | nil => rfl
  | cons f fs ih =>
    simp only [List.cons_append, runAll_cons, andThen_assoc]
    exact congrArg _ (funext fun t => ih t)

/-- A property that every operation of a list keeps holds of what the list answers. -/
theorem runAll_keeps {P : State → Prop} {fs : List (State → Result)}
    (keeps : ∀ f ∈ fs, ∀ s t, P s → f s = .next t → P t) :
    ∀ s t, P s → runAll fs s = .next t → P t := by
  induction fs with
  | nil => intro s t hs h; cases h; exact hs
  | cons f fs ih =>
    intro s t hs h
    obtain ⟨u, hu, ht⟩ := andThen_eq_next.mp h
    exact ih (fun g hg => keeps g (List.mem_cons_of_mem _ hg)) u t
      (keeps f List.mem_cons_self s u hs hu) ht

/-! ## Selection -/

theorem whenK_of_fires {i : Instr} {s : State} (h : firesK i s = true) (r : Result) : whenK i s r = r := by
  simp [whenK, h]

theorem whenK_of_not_fires {i : Instr} {s : State} (h : firesK i s = false) (r : Result) : whenK i s r = .next s := by
  simp [whenK, h]

/-- A selected operation does what its rule says, one that is not selected changes nothing. -/
theorem whenK_eq_next {i : Instr} {s t : State} {r : Result} :
    whenK i s r = .next t ↔ (firesK i s = true ∧ r = .next t) ∨ (firesK i s = false ∧ t = s) := by
  unfold whenK
  cases firesK i s <;> simp [eq_comm]

theorem whenJ_of_fires {i : Instr} {s : State} (h : firesJ i s = true) (r : Result) : whenJ i s r = r := by
  simp [whenJ, h]

theorem whenJ_of_not_fires {i : Instr} {s : State} (h : firesJ i s = false) (r : Result) : whenJ i s r = .next s := by
  simp [whenJ, h]

/-- As `whenK_eq_next`, for the parts of DECODE. -/
theorem whenJ_eq_next {i : Instr} {s t : State} {r : Result} :
    whenJ i s r = .next t ↔ (firesJ i s = true ∧ r = .next t) ∨ (firesJ i s = false ∧ t = s) := by
  unfold whenJ
  cases firesJ i s <;> simp [eq_comm]

/-! ## Bit memories -/

/-- `memRead` answers exactly inside the space, and then the `n` bits from `addr` on. -/
theorem memRead_eq_some {space bits : Bits} {addr n : Nat} :
    memRead space addr n = some bits ↔ addr + n ≤ space.length ∧ bits = (space.drop addr).take n := by
  unfold memRead
  split <;> simp_all [eq_comm]

theorem memRead_length {space bits : Bits} {addr n : Nat} (h : memRead space addr n = some bits) : bits.length = n := by
  obtain ⟨inside, rfl⟩ := memRead_eq_some.mp h
  simp only [List.length_take, List.length_drop]
  omega

/-- `memBit` answers exactly inside the space. -/
theorem memBit_eq_some {space : Bits} {addr : Nat} {b : Bool} :
    memBit space addr = some b ↔ ∃ h : addr < space.length, space[addr] = b := by
  simp [memBit, List.getElem?_eq_some_iff]

theorem memBit_isSome {space : Bits} {addr : Nat} (h : addr < space.length) : ∃ b, memBit space addr = some b :=
  ⟨space[addr], by simp [memBit, h]⟩

/-- The window's length after an append: it saturates at the capacity (10 rule R44 (i)). -/
theorem appendBit_length (cap : Nat) (w : Bits) (d : Bool) (positive : 0 < cap) :
    (appendBit cap w d).length = if w.length = cap then cap else w.length + 1 := by
  unfold appendBit
  split
  · simp
    omega
  · simp

theorem appendBit_length_le {cap : Nat} {w : Bits} (d : Bool) (positive : 0 < cap) (fits : w.length ≤ cap) :
    (appendBit cap w d).length ≤ cap := by
  rw [appendBit_length cap w d positive]
  split <;> omega

/-- An append keeps the last `cap` bits of the samples seen. -/
theorem appendBit_eq_drop {cap : Nat} {w : Bits} (d : Bool) (fits : w.length ≤ cap) (positive : 0 < cap) :
    appendBit cap w d = (w ++ [d]).drop (w.length + 1 - cap) := by
  unfold appendBit
  split
  · rw [show w.length + 1 - cap = 1 by omega, List.drop_append_of_le_length (by omega)]
  · rw [show w.length + 1 - cap = 0 by omega, List.drop_zero]

theorem tailBits_length {w : Bits} {n : Nat} (h : n ≤ w.length) : (tailBits w n).length = n := by
  simp [tailBits]; omega

/-! ## Stimulus -/

@[simp] theorem bitsWords_nil : bitsWords [] = [] := rfl

theorem bitsWords_cons (d : Bool) (b : Bits) : bitsWords (d :: b) = bitWords d ++ bitsWords b := rfl

theorem runWords_append (a b : List InWord) (s : State) :
    runWords (a ++ b) s = andThen (runWords a s) (runWords b) := by
  simp [runWords, List.map_append, runAll_append]
  rfl

/-! ## The cycle -/

/-- IN answers a next state exactly where its stages do, for a well-formed Variant. -/
theorem execInWord_eq_next {f : InWord} {s t : State} :
    execInWord f s = .next t ↔
      s.variant.wf = true ∧ ∃ u, runStages (beginCycle f s) = .next u ∧ t = endCycle u := by
  unfold execInWord
  split
  · next h =>
    rw [andThen_eq_next]
    simp [h, eq_comm (a := t)]
  · next h => simp [h]

/-- The stages answer RESET's state, or that of the six stages from a state that 93 U3 does not exclude. -/
theorem runStages_eq_next {s t : State} :
    runStages s = .next t ↔
      (s.inp.rst = true ∧ execReset s = .next t) ∨
      (s.inp.rst = false ∧ insideSpec s = true ∧
        runAll [stage1, stage2, stage3, stage4, stage5, stage6] s = .next t) := by
  unfold runStages
  cases s.inp.rst <;> cases insideSpec s <;> simp

end Sys2Proof.Machine
end

