-- ==== Sys2Proof/Laws/Memory.lean ====
section
/-! SUPPORT. The canonical form of the three bit memories: every memory operation keeps it and the machine has it after
reset (20 rule R60). -/

namespace Sys2Proof.Machine

theorem memory_wf_iff {s : State} :
    Memory.wf s = true ↔
      s.w.length ≤ s.variant.cap ∧ s.fs.length ≤ s.variant.cap ∧ s.txb.length ≤ Config.txMax s.variant := by
  simp [Memory.wf, and_assoc]

/-- An operation that writes no memory keeps the form. -/
theorem memory_wf_of_same {s t : State} (hv : t.variant = s.variant) (hw : t.w = s.w) (hf : t.fs = s.fs)
    (hb : t.txb = s.txb) : Memory.wf t = Memory.wf s := by
  simp [Memory.wf, hv, hw, hf, hb]

theorem appendSample_memory_wf {s : State} (positive : 0 < s.variant.cap) (h : Memory.wf s = true) :
    Memory.wf (appendSample s) = true := by
  rw [memory_wf_iff] at h ⊢
  exact ⟨appendBit_length_le _ positive h.1, h.2⟩

theorem suspendSampler_memory_wf {s : State} (h : Memory.wf s = true) : Memory.wf (suspendSampler s) = true := by
  rw [memory_wf_iff] at h ⊢
  exact ⟨Nat.zero_le _, h.2⟩

/-- What `memRead` takes from the window fits the snapshot. -/
theorem publishFrame_memory_wf {s : State} {f : Bits} {addr n : Nat} (read : memRead s.w addr n = some f)
    (h : Memory.wf s = true) : Memory.wf (publishFrame f s) = true := by
  rw [memory_wf_iff] at h ⊢
  have := memRead_length read
  obtain ⟨inside, -⟩ := memRead_eq_some.mp read
  exact ⟨h.1, by simp only [publishFrame_fs, publishFrame_variant]; omega, h.2.2⟩

/-- One stuffed 0 for every `s` ones at most, `run` of them counted before (42 rule R152). -/
theorem stuffFrom_length_le (s : Nat) (positive : 0 < s) (x : Bits) :
    ∀ run, run < s → (stuffFrom s run x).length ≤ x.length + (x.length + run) / s := by
  induction x with
  | nil => simp [stuffFrom]
  | cons b r ih =>
    intro run small
    cases b with
    | false =>
      have := ih 0 positive
      have step : (r.length + 0) / s ≤ (r.length + 1 + run) / s := Nat.div_le_div_right (by omega)
      simp only [stuffFrom, List.length_cons]
      omega
    | true =>
      simp only [stuffFrom]
      split
      · next full =>
        have := ih 0 positive
        have step : (r.length + 1 + run) / s = r.length / s + 1 := by
          rw [show r.length + 1 + run = r.length + s by omega, Nat.add_div_right _ positive]
        simp only [List.length_cons, Nat.add_zero] at this ⊢
        omega
      · next more =>
        have := ih (run + 1) (by omega)
        simp only [List.length_cons]
        rw [show r.length + 1 + run = r.length + (run + 1) by omega]
        omega

/-- The transmit sequence of a well-formed Variant fits the transmit buffer (00 rule R9). -/
theorem txBuild_length_le {v : Variant} (wf : v.wf = true) (code : Byte) :
    (txBuild v code).length ≤ Config.txMax v := by
  simp only [Variant.wf, Bool.and_eq_true, decide_eq_true_eq] at wf
  have run : 1 ≤ v.run := by tauto
  have header : v.hdr.length = 24 := by tauto
  have body : (commandBody v code).length = 32 := by simp [commandBody, bitsOf, header]
  have bound := stuffFrom_length_le v.run run (commandBody v code) 0 run
  rw [body, Nat.add_zero] at bound
  unfold txBuild Config.txMax stuff
  cases v.stuffEn <;> simp [body, Variant.n] <;> omega

theorem loadTx_memory_wf {s : State} (code : Byte) (wf : s.variant.wf = true) (h : Memory.wf s = true) :
    Memory.wf (loadTx (txBuild s.variant code) s) = true := by
  rw [memory_wf_iff] at h ⊢
  exact ⟨h.1, h.2.1, txBuild_length_le wf code⟩

theorem releaseTx_memory_wf {s : State} (h : Memory.wf s = true) : Memory.wf (releaseTx s) = true := by
  rw [memory_wf_iff] at h ⊢
  exact ⟨h.1, h.2.1, Nat.zero_le _⟩

theorem resetRegisters_memory_wf (s : State) : Memory.wf (resetRegisters s) = true := by
  rw [memory_wf_iff]
  exact ⟨Nat.zero_le _, Nat.zero_le _, Nat.zero_le _⟩

/-- Taking an exception keeps the form: X4 empties the transmit buffer, the others write no memory. -/
theorem raise_memory_wf (x : Exc) {s : State} (h : Memory.wf s = true) : Memory.wf (raise x s) = true := by
  cases x with
  | clockTimeout =>
    have released := releaseTx_memory_wf h
    exact released
  | malformedFrame => exact h
  | unexpectedLength => exact h
  | lostSync => exact h
  | windowTimeout => exact h
  | busy => exact h
  | storeFail => exact h
  | oversizeFrame => exact h

theorem reset_memory_wf : Memory.wf State.reset = true := by decide

end Sys2Proof.Machine
end

