-- ==== Sys2Proof/Laws/Cycle.lean ====
section
/-! SUPPORT. What each stage of a cycle without reset can do, said once: the stage's choice already implies the condition
bits its operation tests, so a stage answers the update of that operation; and what DECODE and SAMPLE leave unchanged. -/

namespace Sys2Proof.Machine

/-! ## Stages 1, 4, 5 and 6 as their updates -/

theorem stage1_eq {s : State} (run : s.inp.rst = false) :
    stage1 s = .next (setEdge (if s.inp.errClr then acknowledge s else s)) := by
  cases clear : s.inp.errClr <;>
    simp [stage1, execErrClear, execEdgeDetect, whenK, firesK, kPattern, kBit, run, clear]

theorem stage4_eq {s : State} (run : s.inp.rst = false) :
    stage4 s = .next (if s.inp.cmdValid then
      (if s.cpValid then raise .busy s else pulseCmdResp .accepted (acceptCommand s.inp.cmdCode s)) else s) := by
  cases asked : s.inp.cmdValid <;> cases pending : s.cpValid <;>
    simp [stage4, execCmdReject, execCmdAccept, whenK, firesK, kPattern, kBit, run, asked, pending]

theorem stage6_eq {s : State} (run : s.inp.rst = false) :
    stage6 s = .next (if s.inp.storeFail then raise .storeFail s else s) := by
  cases failed : s.inp.storeFail <;>
    simp [stage6, execStoreFailLatch, whenK, firesK, kPattern, kBit, run, failed]

/-- Stage 5 from `IDLE` (the first four rows of 46 rule R215's table). -/
theorem stage5_idle {s : State} (run : s.inp.rst = false) (idle : s.txState = .idle) :
    stage5 s = .next (if s.cpValid then
      (if s.txw then loadTx (txBuild s.variant s.cpCode) s
       else if s.wtCnt + 1 < s.variant.windowTimeout then waitWindow s else raise .windowTimeout s) else s) := by
  unfold stage5
  rw [idle]
  cases pending : s.cpValid
  · simp
  · cases window : s.txw
    · by_cases more : s.wtCnt + 1 < s.variant.windowTimeout
      · simp [more, execTxWaitWindow, whenK, firesK, kPattern, kBit, run, idle, pending, window]
      · simp [more, execTxWinTimeout, whenK, firesK, kPattern, kBit, run, idle, pending, window, not_lt.mp more]
    · simp [execTxLoad, whenK, firesK, kPattern, kBit, run, idle, pending, window]

/-- Stage 5 from `WAIT_LOW`. -/
theorem stage5_waitLow {s : State} (run : s.inp.rst = false) (low : s.txState = .waitLow) :
    stage5 s = if s.inp.pclk then
        .next (if s.ctCnt + 1 < s.variant.clkTimeout then stallTx s else raise .clockTimeout s)
      else match memBit s.txb s.txIdx with
        | some b => .next (driveLine b s)
        | none => .fault .noSuchBit := by
  unfold stage5
  rw [low]
  cases clock : s.inp.pclk
  · simp only [execTxDrive, Bool.false_eq_true, if_false]
    exact whenK_of_fires (by simp [firesK, kPattern, kBit, run, low, clock]) _
  · by_cases more : s.ctCnt + 1 < s.variant.clkTimeout
    · simp [more, execTxStallL, whenK, firesK, kPattern, kBit, run, low, clock]
    · simp [more, execTxClkTimeoutL, whenK, firesK, kPattern, kBit, run, low, clock, not_lt.mp more]

/-- Stage 5 from `WAIT_HIGH`. -/
theorem stage5_waitHigh {s : State} (run : s.inp.rst = false) (high : s.txState = .waitHigh) :
    stage5 s = .next (if s.inp.pclk then
        (if s.txIdx + 1 = s.txb.length then pulseTxDone .sent (releaseTx s) else advanceTx s)
      else if s.ctCnt + 1 < s.variant.clkTimeout then stallTx s else raise .clockTimeout s) := by
  unfold stage5
  rw [high]
  cases clock : s.inp.pclk
  · by_cases more : s.ctCnt + 1 < s.variant.clkTimeout
    · simp [more, execTxStallH, whenK, firesK, kPattern, kBit, run, high, clock]
    · simp [more, execTxClkTimeoutH, whenK, firesK, kPattern, kBit, run, high, clock, not_lt.mp more]
  · by_cases last : s.txIdx + 1 = s.txb.length
    · simp [last, execTxRelease, whenK, firesK, kPattern, kBit, run, high, clock]
    · simp [last, execTxAdvance, whenK, firesK, kPattern, kBit, run, high, clock]

/-! ## Stage 2: what DECODE leaves unchanged -/

/-- `t` differs from `s` at most in `fs_valid`, `status`, the wires and the pulses. -/
def DecoderFrame (s t : State) : Prop :=
  t = { s with fsValid := t.fsValid, status := t.status, net := t.net, out := t.out }

theorem DecoderFrame.refl (s : State) : DecoderFrame s s := rfl

theorem DecoderFrame.trans {s t u : State} (first : DecoderFrame s t) (second : DecoderFrame t u) :
    DecoderFrame s u := by
  unfold DecoderFrame at *
  rw [second, first]

/-- A part of DECODE that is not selected changes nothing, so a frame of its update is a frame of the part. -/
theorem whenJ_frame {i : Instr} {s t : State} {r : Result} (update : r = .next t → DecoderFrame s t)
    (h : whenJ i s r = .next t) : DecoderFrame s t := by
  rcases whenJ_eq_next.mp h with ⟨-, answered⟩ | ⟨-, rfl⟩
  · exact update answered
  · exact DecoderFrame.refl _

theorem runAll_frame {fs : List (State → Result)}
    (parts : ∀ f ∈ fs, ∀ s t, f s = .next t → DecoderFrame s t) {s t : State} (h : runAll fs s = .next t) :
    DecoderFrame s t :=
  runAll_keeps (P := DecoderFrame s) (fun f hf u v framed step => framed.trans (parts f hf u v step)) s t
    (DecoderFrame.refl s) h

theorem execDestuff_frame (s t : State) (h : execDestuff s = .next t) : DecoderFrame s t :=
  whenJ_frame (fun answered => by cases answered; rfl) h

theorem execDiscardMalformed_frame (s t : State) (h : execDiscardMalformed s = .next t) : DecoderFrame s t :=
  whenJ_frame (fun answered => by cases answered; rfl) h

theorem execDiscardLength_frame (s t : State) (h : execDiscardLength s = .next t) : DecoderFrame s t :=
  whenJ_frame (fun answered => by cases answered; rfl) h

theorem execUpdPublishStatus_frame (s t : State) (h : execUpdPublishStatus s = .next t) : DecoderFrame s t :=
  whenJ_frame (fun answered => by cases answered; rfl) h

theorem execUpdPublishZone_frame (s t : State) (h : execUpdPublishZone s = .next t) : DecoderFrame s t :=
  whenJ_frame (fun answered => by cases answered; rfl) h

theorem execUpdStoreStatus_frame (s t : State) (h : execUpdStoreStatus s = .next t) : DecoderFrame s t :=
  whenJ_frame (fun answered => by cases answered; rfl) h

theorem execUpdStoreZone_frame (s t : State) (h : execUpdStoreZone s = .next t) : DecoderFrame s t :=
  whenJ_frame (fun answered => by cases answered; rfl) h

theorem execNextStatusRich_frame (s t : State) (h : execNextStatusRich s = .next t) : DecoderFrame s t :=
  whenJ_frame (fun answered => by cases answered; rfl) h

theorem execNextStatusSimple_frame (s t : State) (h : execNextStatusSimple s = .next t) : DecoderFrame s t :=
  whenJ_frame (fun answered => by cases answered; rfl) h

theorem execTrace_frame (s t : State) (h : execTrace s = .next t) : DecoderFrame s t :=
  whenJ_frame (fun answered => by cases answered; rfl) h

theorem execZoneForce_frame (s t : State) (h : execZoneForce s = .next t) : DecoderFrame s t := by
  refine whenJ_frame (fun answered => ?_) h
  refine DecoderFrame.trans (t := setNext .triggered s) rfl (runAll_frame ?_ answered)
  intro f hf
  simp only [List.mem_cons, List.not_mem_nil, or_false] at hf
  rcases hf with rfl | rfl
  · exact execUpdStoreZone_frame
  · exact execUpdPublishZone_frame

theorem execZoneDecode_frame (s t : State) (h : execZoneDecode s = .next t) : DecoderFrame s t := by
  refine whenJ_frame (fun answered => ?_) h
  exact DecoderFrame.trans
    (t := pulseZone (zoneMasks s.variant s.net.dst) (setReason .zoneReport s)) rfl (execZoneForce_frame _ _ answered)

theorem execStatusDecode_frame (s t : State) (h : execStatusDecode s = .next t) : DecoderFrame s t := by
  refine whenJ_frame (fun answered => ?_) h
  refine DecoderFrame.trans (t := setReason .statusReport s) rfl (runAll_frame ?_ answered)
  intro f hf
  simp only [List.mem_cons, List.not_mem_nil, or_false] at hf
  rcases hf with rfl | rfl | rfl | rfl
  · exact execNextStatusRich_frame
  · exact execNextStatusSimple_frame
  · exact execUpdStoreStatus_frame
  · exact execUpdPublishStatus_frame

theorem execDecode_frame (s t : State) (h : execDecode s = .next t) : DecoderFrame s t := by
  rcases whenK_eq_next.mp h with ⟨-, answered⟩ | ⟨-, rfl⟩
  · refine DecoderFrame.trans (t := beginDecode s) rfl (runAll_frame ?_ answered)
    intro f hf
    simp only [List.mem_cons, List.not_mem_nil, or_false] at hf
    rcases hf with rfl | rfl | rfl | rfl | rfl | rfl
    · exact execDestuff_frame
    · exact execDiscardMalformed_frame
    · exact execDiscardLength_frame
    · exact execZoneDecode_frame
    · exact execStatusDecode_frame
    · exact execTrace_frame
  · exact DecoderFrame.refl _

theorem stage2_frame {s t : State} (h : stage2 s = .next t) : DecoderFrame s t := by
  unfold stage2 at h
  split at h
  · exact execDecode_frame s t h
  · cases h
    rfl

/-! ## Stage 3: what the sampler leaves unchanged -/

/-- `t` differs from `s` at most in the receiver's registers, the snapshot, `ERR` and the wires. -/
def SamplerFrame (s t : State) : Prop :=
  t = { s with
    w := t.w, inside := t.inside, age := t.age, txw := t.txw, fsValid := t.fsValid, fs := t.fs, err := t.err,
    net := t.net }

theorem SamplerFrame.refl (s : State) : SamplerFrame s s := rfl

theorem SamplerFrame.trans {s t u : State} (first : SamplerFrame s t) (second : SamplerFrame t u) :
    SamplerFrame s u := by
  unfold SamplerFrame at *
  rw [second, first]

theorem whenK_samplerFrame {i : Instr} {s t : State} {r : Result} (update : r = .next t → SamplerFrame s t)
    (h : whenK i s r = .next t) : SamplerFrame s t := by
  rcases whenK_eq_next.mp h with ⟨-, answered⟩ | ⟨-, rfl⟩
  · exact update answered
  · exact SamplerFrame.refl _

theorem execFramePublish_frame (s t : State) (h : execFramePublish s = .next t) : SamplerFrame s t := by
  refine whenK_samplerFrame (fun answered => ?_) h
  split at answered
  · cases answered
  · split at answered
    · cases answered
      rfl
    · cases answered

theorem execSample_frame (s t : State) (h : execSample s = .next t) : SamplerFrame s t := by
  refine whenK_samplerFrame (fun answered => ?_) h
  refine runAll_keeps (P := SamplerFrame s) (fun f hf u v framed part => framed.trans ?_) s t (SamplerFrame.refl s)
    answered
  simp only [List.mem_cons, List.not_mem_nil, or_false] at hf
  rcases hf with rfl | rfl | rfl | rfl | rfl | rfl | rfl | rfl
  · exact whenK_samplerFrame (fun answered => by cases answered; rfl) part
  · exact whenK_samplerFrame (fun answered => by cases answered; rfl) part
  · exact whenK_samplerFrame (fun answered => by cases answered; rfl) part
  · exact execFramePublish_frame u v part
  · exact whenK_samplerFrame (fun answered => by cases answered; rfl) part
  · exact whenK_samplerFrame (fun answered => by cases answered; rfl) part
  · exact whenK_samplerFrame (fun answered => by cases answered; rfl) part
  · exact whenK_samplerFrame (fun answered => by cases answered; rfl) part

theorem stage3_frame {s t : State} (h : stage3 s = .next t) : SamplerFrame s t := by
  unfold stage3 at h
  split at h
  · split at h
    · exact execSample_frame s t h
    · exact whenK_samplerFrame (fun answered => by cases answered; rfl) h
  · cases h
    rfl

end Sys2Proof.Machine
end

