-- ==== Sys2Proof/Laws/PerInstr.lean ====
section
/-! SUPPORT. The family `OpcodeRow`: the encoding of every instruction begins with the eight bits of its row number, bit 0
first, and that number is the place of a row of spec/opcode_table.json. -/

namespace Sys2Proof.Laws

/-- The encoding begins with the number of one of the 55 rows (notes/assumptions/7.md). -/
def OpcodeRow.Statement (i : Instr) : Prop :=
  (encode i).take 8 = numBits 8 (rowNumber i) ∧ rowNumber i < 55

/-- The row number takes exactly the first eight bits. -/
theorem opcodeRow_first_bits (i : Instr) : (encode i).take 8 = numBits 8 (rowNumber i) := by
  simp [encode, numBits]

theorem OpcodeRow.reset : OpcodeRow.Statement .reset :=
  ⟨opcodeRow_first_bits _, by decide⟩
theorem OpcodeRow.errClear : OpcodeRow.Statement .errClear :=
  ⟨opcodeRow_first_bits _, by decide⟩
theorem OpcodeRow.edgeDetect : OpcodeRow.Statement .edgeDetect :=
  ⟨opcodeRow_first_bits _, by decide⟩
theorem OpcodeRow.decode : OpcodeRow.Statement .decode :=
  ⟨opcodeRow_first_bits _, by decide⟩
theorem OpcodeRow.sample : OpcodeRow.Statement .sample :=
  ⟨opcodeRow_first_bits _, by decide⟩
theorem OpcodeRow.sampleSuspend : OpcodeRow.Statement .sampleSuspend :=
  ⟨opcodeRow_first_bits _, by decide⟩
theorem OpcodeRow.winAppend : OpcodeRow.Statement .winAppend :=
  ⟨opcodeRow_first_bits _, by decide⟩
theorem OpcodeRow.ageInc : OpcodeRow.Statement .ageInc :=
  ⟨opcodeRow_first_bits _, by decide⟩
theorem OpcodeRow.flagMatch : OpcodeRow.Statement .flagMatch :=
  ⟨opcodeRow_first_bits _, by decide⟩
theorem OpcodeRow.framePublish : OpcodeRow.Statement .framePublish :=
  ⟨opcodeRow_first_bits _, by decide⟩
theorem OpcodeRow.frameDrop : OpcodeRow.Statement .frameDrop :=
  ⟨opcodeRow_first_bits _, by decide⟩
theorem OpcodeRow.boundaryToggle : OpcodeRow.Statement .boundaryToggle :=
  ⟨opcodeRow_first_bits _, by decide⟩
theorem OpcodeRow.syncRecover : OpcodeRow.Statement .syncRecover :=
  ⟨opcodeRow_first_bits _, by decide⟩
theorem OpcodeRow.quietDetect : OpcodeRow.Statement .quietDetect :=
  ⟨opcodeRow_first_bits _, by decide⟩
theorem OpcodeRow.cmdAccept : OpcodeRow.Statement .cmdAccept :=
  ⟨opcodeRow_first_bits _, by decide⟩
theorem OpcodeRow.cmdReject : OpcodeRow.Statement .cmdReject :=
  ⟨opcodeRow_first_bits _, by decide⟩
theorem OpcodeRow.txLoad : OpcodeRow.Statement .txLoad :=
  ⟨opcodeRow_first_bits _, by decide⟩
theorem OpcodeRow.txWaitWindow : OpcodeRow.Statement .txWaitWindow :=
  ⟨opcodeRow_first_bits _, by decide⟩
theorem OpcodeRow.txWinTimeout : OpcodeRow.Statement .txWinTimeout :=
  ⟨opcodeRow_first_bits _, by decide⟩
theorem OpcodeRow.txDrive : OpcodeRow.Statement .txDrive :=
  ⟨opcodeRow_first_bits _, by decide⟩
theorem OpcodeRow.txAdvance : OpcodeRow.Statement .txAdvance :=
  ⟨opcodeRow_first_bits _, by decide⟩
theorem OpcodeRow.txRelease : OpcodeRow.Statement .txRelease :=
  ⟨opcodeRow_first_bits _, by decide⟩
theorem OpcodeRow.txStallL : OpcodeRow.Statement .txStallL :=
  ⟨opcodeRow_first_bits _, by decide⟩
theorem OpcodeRow.txStallH : OpcodeRow.Statement .txStallH :=
  ⟨opcodeRow_first_bits _, by decide⟩
theorem OpcodeRow.txClkTimeoutL : OpcodeRow.Statement .txClkTimeoutL :=
  ⟨opcodeRow_first_bits _, by decide⟩
theorem OpcodeRow.txClkTimeoutH : OpcodeRow.Statement .txClkTimeoutH :=
  ⟨opcodeRow_first_bits _, by decide⟩
theorem OpcodeRow.storeFailLatch : OpcodeRow.Statement .storeFailLatch :=
  ⟨opcodeRow_first_bits _, by decide⟩
theorem OpcodeRow.destuff : OpcodeRow.Statement .destuff :=
  ⟨opcodeRow_first_bits _, by decide⟩
theorem OpcodeRow.discardMalformed : OpcodeRow.Statement .discardMalformed :=
  ⟨opcodeRow_first_bits _, by decide⟩
theorem OpcodeRow.discardLength : OpcodeRow.Statement .discardLength :=
  ⟨opcodeRow_first_bits _, by decide⟩
theorem OpcodeRow.zoneDecode : OpcodeRow.Statement .zoneDecode :=
  ⟨opcodeRow_first_bits _, by decide⟩
theorem OpcodeRow.zoneForce : OpcodeRow.Statement .zoneForce :=
  ⟨opcodeRow_first_bits _, by decide⟩
theorem OpcodeRow.statusDecode : OpcodeRow.Statement .statusDecode :=
  ⟨opcodeRow_first_bits _, by decide⟩
theorem OpcodeRow.nextStatusRich : OpcodeRow.Statement .nextStatusRich :=
  ⟨opcodeRow_first_bits _, by decide⟩
theorem OpcodeRow.nextStatusSimple : OpcodeRow.Statement .nextStatusSimple :=
  ⟨opcodeRow_first_bits _, by decide⟩
theorem OpcodeRow.updPublishStatus : OpcodeRow.Statement .updPublishStatus :=
  ⟨opcodeRow_first_bits _, by decide⟩
theorem OpcodeRow.updPublishZone : OpcodeRow.Statement .updPublishZone :=
  ⟨opcodeRow_first_bits _, by decide⟩
theorem OpcodeRow.updStoreStatus : OpcodeRow.Statement .updStoreStatus :=
  ⟨opcodeRow_first_bits _, by decide⟩
theorem OpcodeRow.updStoreZone : OpcodeRow.Statement .updStoreZone :=
  ⟨opcodeRow_first_bits _, by decide⟩
theorem OpcodeRow.trace : OpcodeRow.Statement .trace :=
  ⟨opcodeRow_first_bits _, by decide⟩
theorem OpcodeRow.stuff (x : Bits) :
    OpcodeRow.Statement (.stuff x) :=
  ⟨opcodeRow_first_bits _, by show 40 < 55; omega⟩
theorem OpcodeRow.txBuild (code : Byte) :
    OpcodeRow.Statement (.txBuild code) :=
  ⟨opcodeRow_first_bits _, by show 41 < 55; omega⟩
theorem OpcodeRow.statusLoad : OpcodeRow.Statement .statusLoad :=
  ⟨opcodeRow_first_bits _, by decide⟩
theorem OpcodeRow.flagVRef : OpcodeRow.Statement .flagVRef :=
  ⟨opcodeRow_first_bits _, by decide⟩
theorem OpcodeRow.rawFrame (p : Bits) :
    OpcodeRow.Statement (.rawFrame p) :=
  ⟨opcodeRow_first_bits _, by show 44 < 55; omega⟩
theorem OpcodeRow.zoneReport (k : Bool) (g : BitVec 7) (a t : Byte) (h : BitVec 31) :
    OpcodeRow.Statement (.zoneReport k g a t h) :=
  ⟨opcodeRow_first_bits _, by show 45 < 55; omega⟩
theorem OpcodeRow.statusReport (g : Byte) (a b c : Bool) (h : BitVec 5) (t p : Bool) (e : BitVec 37) :
    OpcodeRow.Statement (.statusReport g a b c h t p e) :=
  ⟨opcodeRow_first_bits _, by show 46 < 55; omega⟩
theorem OpcodeRow.cmdFrame (code : Byte) :
    OpcodeRow.Statement (.cmdFrame code) :=
  ⟨opcodeRow_first_bits _, by show 47 < 55; omega⟩
theorem OpcodeRow.inWord (f : InWord) :
    OpcodeRow.Statement (.inWord f) :=
  ⟨opcodeRow_first_bits _, by show 48 < 55; omega⟩
theorem OpcodeRow.statusCode (st : AlarmStatus) :
    OpcodeRow.Statement (.statusCode st) :=
  ⟨opcodeRow_first_bits _, by show 49 < 55; omega⟩
theorem OpcodeRow.persistedByte (b : Byte) :
    OpcodeRow.Statement (.persistedByte b) :=
  ⟨opcodeRow_first_bits _, by show 50 < 55; omega⟩
theorem OpcodeRow.cmdResp (r : CmdResp) :
    OpcodeRow.Statement (.cmdResp r) :=
  ⟨opcodeRow_first_bits _, by show 51 < 55; omega⟩
theorem OpcodeRow.txResult (r : TxResult) :
    OpcodeRow.Statement (.txResult r) :=
  ⟨opcodeRow_first_bits _, by show 52 < 55; omega⟩
theorem OpcodeRow.trcReason (r : TrcReason) :
    OpcodeRow.Statement (.trcReason r) :=
  ⟨opcodeRow_first_bits _, by show 53 < 55; omega⟩
theorem OpcodeRow.errBits (e : BitVec 4) :
    OpcodeRow.Statement (.errBits e) :=
  ⟨opcodeRow_first_bits _, by show 54 < 55; omega⟩

end Sys2Proof.Laws
end

