-- ==== Sys2Proof/Tests/Slice0.lean ====
section
/-! SUPPORT. The model's own tests: ill-formed terms that the checks refuse, words of the spec's encodings that decode to their
instructions, single steps from the vectors of 95_test_vectors.md, and for each statement with hypotheses a concrete state
that meets them. Expected values are the spec's. -/

namespace Sys2Proof.Tests

open Sys2Proof Sys2Proof.Machine

/-! ## Helpers -/

/-- `n` bits of a number, its most significant bit first: a bit string as 95_test_vectors.md writes it, oldest bit first. -/
def wire (n w : Nat) : Bits := (numBits n w).reverse

/-- `n` zeros, `0^n`. -/
def zeros (n : Nat) : Bits := List.replicate n false

/-- `n` ones, `1^n`. -/
def ones (n : Nat) : Bits := List.replicate n true

/-- The result is a next state with the property `p`. -/
def holds (r : Result) (p : State → Bool) : Bool :=
  match r with
  | .next t => p t
  | _ => false

/-- One step with the input word `w`. -/
def after (w : BitVec 24) (s : State) : Result := step { s with stim := [w] }

/-- The stream decodes to the instruction, with nothing left. -/
abbrev decodesTo (b : Bits) (i : Instr) : Prop := decodedInstr (decode b) = some i

/-- The decoder's refusal, if it refuses. -/
def refusal (b : Bits) : Option DecodeError :=
  match decode b with
  | .ok _ => none
  | .error e => some e

theorem exists_of_holds {r : Result} {p : State → Bool} (h : holds r p = true) : ∃ t, r = .next t ∧ p t = true := by
  cases r <;> simp_all [holds]

/-! ## Well-formedness refuses what it should -/

set_option maxRecDepth 4000 in
theorem test_wf_stuff_too_long : (Instr.stuff (zeros 256)).wf = false ∧ (Instr.stuff (zeros 255)).wf = true := by decide
theorem test_wf_rawFrame_too_long :
    (Instr.rawFrame (zeros 113)).wf = false ∧ (Instr.rawFrame (zeros 112)).wf = true := by decide
theorem test_wf_named_variants :
    Config.vRef.wf = true ∧ Config.vT.wf = true ∧ Config.vToy.wf = true ∧ Config.vSimple.wf = true := by decide
/-- 00 rule R9 by hand: `C + 2` is 130 and 18. -/
theorem test_ageW : Config.ageW Config.vRef = 9 ∧ Config.ageW Config.vToy = 6
    ∧ ageBits Config.vToy (-1) = 0b111111 ∧ ageBits Config.vToy 17 = 0b010001 := by decide
theorem test_wf_flag : Variant.wf { Config.vRef with flag := [] } = false
    ∧ Variant.wf { Config.vRef with cap := 7, quiet := 1 } = false := by decide
theorem test_wf_quiet : Variant.wf { Config.vRef with quiet := 0 } = false
    ∧ Variant.wf { Config.vRef with quiet := 129 } = false := by decide
theorem test_wf_run : Variant.wf { Config.vRef with run := 0 } = false := by decide
theorem test_wf_idxDisc : Variant.wf { Config.vRef with idxDisc := 72 } = false := by decide
theorem test_wf_idxBank : Variant.wf { Config.vRef with idxBank := 72 } = false := by decide
theorem test_wf_idxActive : Variant.wf { Config.vRef with idxActive := 57 } = false
    ∧ Variant.wf { Config.vRef with idxActive := 56 } = true := by decide
theorem test_wf_idxStatus : Variant.wf { Config.vRef with idxA := 72 } = false
    ∧ Variant.wf { Config.vRef with idxB := 72 } = false ∧ Variant.wf { Config.vRef with idxC := 72 } = false
    ∧ Variant.wf { Config.vRef with idxTotal := 72 } = false
    ∧ Variant.wf { Config.vRef with idxPartial := 72 } = false := by decide
theorem test_wf_timeouts : Variant.wf { Config.vRef with clkTimeout := 0 } = false
    ∧ Variant.wf { Config.vRef with windowTimeout := 0 } = false := by decide
theorem test_wf_hdr : Variant.wf { Config.vRef with hdr := zeros 23 } = false := by decide

/-! ## Decoding: the rows of the condition words, their don't-care bits all 0 and all 1 -/

theorem test_decode_reset :
    decodesTo (numBits 8 0 ++ numBits 18 0b000000000000000001) .reset
      ∧ decodesTo (numBits 8 0 ++ numBits 18 0b111111111111111111) .reset := by
  decide
theorem test_decode_errClear :
    decodesTo (numBits 8 1 ++ numBits 18 0b000000001000000000) .errClear
      ∧ decodesTo (numBits 8 1 ++ numBits 18 0b111111111111111110) .errClear := by
  decide
theorem test_decode_edgeDetect :
    decodesTo (numBits 8 2 ++ numBits 18 0b000000000000000000) .edgeDetect
      ∧ decodesTo (numBits 8 2 ++ numBits 18 0b111111111111111110) .edgeDetect := by
  decide
theorem test_decode_decode :
    decodesTo (numBits 8 3 ++ numBits 18 0b000000000000100000) .decode
      ∧ decodesTo (numBits 8 3 ++ numBits 18 0b111111111111111110) .decode := by
  decide
theorem test_decode_sample :
    decodesTo (numBits 8 4 ++ numBits 18 0b000000000000000010) .sample
      ∧ decodesTo (numBits 8 4 ++ numBits 18 0b111111111111111010) .sample := by
  decide
theorem test_decode_sampleSuspend :
    decodesTo (numBits 8 5 ++ numBits 18 0b000000000000000110) .sampleSuspend
      ∧ decodesTo (numBits 8 5 ++ numBits 18 0b111111111111111110) .sampleSuspend := by
  decide
theorem test_decode_winAppend :
    decodesTo (numBits 8 6 ++ numBits 18 0b000000000000000010) .winAppend
      ∧ decodesTo (numBits 8 6 ++ numBits 18 0b111111111111111010) .winAppend := by
  decide
theorem test_decode_ageInc :
    decodesTo (numBits 8 7 ++ numBits 18 0b000000000000000010) .ageInc
      ∧ decodesTo (numBits 8 7 ++ numBits 18 0b111111111111111010) .ageInc := by
  decide
theorem test_decode_flagMatch :
    decodesTo (numBits 8 8 ++ numBits 18 0b000000000000000010) .flagMatch
      ∧ decodesTo (numBits 8 8 ++ numBits 18 0b111111111111111010) .flagMatch := by
  decide
theorem test_decode_framePublish :
    decodesTo (numBits 8 9 ++ numBits 18 0b000011100000000010) .framePublish
      ∧ decodesTo (numBits 8 9 ++ numBits 18 0b111111111111111010) .framePublish := by
  decide
theorem test_decode_frameDrop :
    decodesTo (numBits 8 10 ++ numBits 18 0b000001100000000010) .frameDrop
      ∧ decodesTo (numBits 8 10 ++ numBits 18 0b111101111111111010) .frameDrop := by
  decide
theorem test_decode_boundaryToggle :
    decodesTo (numBits 8 11 ++ numBits 18 0b000000100000000010) .boundaryToggle
      ∧ decodesTo (numBits 8 11 ++ numBits 18 0b111111111111111010) .boundaryToggle := by
  decide
theorem test_decode_syncRecover :
    decodesTo (numBits 8 12 ++ numBits 18 0b000100000000000010) .syncRecover
      ∧ decodesTo (numBits 8 12 ++ numBits 18 0b111111011111111010) .syncRecover := by
  decide
theorem test_decode_quietDetect :
    decodesTo (numBits 8 13 ++ numBits 18 0b000000000000000010) .quietDetect
      ∧ decodesTo (numBits 8 13 ++ numBits 18 0b111111111111111010) .quietDetect := by
  decide
theorem test_decode_cmdAccept :
    decodesTo (numBits 8 14 ++ numBits 18 0b000000000001000000) .cmdAccept
      ∧ decodesTo (numBits 8 14 ++ numBits 18 0b111111111101111110) .cmdAccept := by
  decide
theorem test_decode_cmdReject :
    decodesTo (numBits 8 15 ++ numBits 18 0b000000000011000000) .cmdReject
      ∧ decodesTo (numBits 8 15 ++ numBits 18 0b111111111111111110) .cmdReject := by
  decide
theorem test_decode_txLoad :
    decodesTo (numBits 8 16 ++ numBits 18 0b000000000110000000) .txLoad
      ∧ decodesTo (numBits 8 16 ++ numBits 18 0b111111111111111010) .txLoad := by
  decide
theorem test_decode_txWaitWindow :
    decodesTo (numBits 8 17 ++ numBits 18 0b000000000010000000) .txWaitWindow
      ∧ decodesTo (numBits 8 17 ++ numBits 18 0b011111111011111010) .txWaitWindow := by
  decide
theorem test_decode_txWinTimeout :
    decodesTo (numBits 8 18 ++ numBits 18 0b100000000010000000) .txWinTimeout
      ∧ decodesTo (numBits 8 18 ++ numBits 18 0b111111111011111010) .txWinTimeout := by
  decide
theorem test_decode_txDrive :
    decodesTo (numBits 8 19 ++ numBits 18 0b000000000000000100) .txDrive
      ∧ decodesTo (numBits 8 19 ++ numBits 18 0b111111111111100110) .txDrive := by
  decide
theorem test_decode_txAdvance :
    decodesTo (numBits 8 20 ++ numBits 18 0b000000000000011100) .txAdvance
      ∧ decodesTo (numBits 8 20 ++ numBits 18 0b110111111111111110) .txAdvance := by
  decide
theorem test_decode_txRelease :
    decodesTo (numBits 8 21 ++ numBits 18 0b001000000000011100) .txRelease
      ∧ decodesTo (numBits 8 21 ++ numBits 18 0b111111111111111110) .txRelease := by
  decide
theorem test_decode_txStallL :
    decodesTo (numBits 8 22 ++ numBits 18 0b000000000000010100) .txStallL
      ∧ decodesTo (numBits 8 22 ++ numBits 18 0b101111111111110110) .txStallL := by
  decide
theorem test_decode_txStallH :
    decodesTo (numBits 8 23 ++ numBits 18 0b000000000000001100) .txStallH
      ∧ decodesTo (numBits 8 23 ++ numBits 18 0b101111111111101110) .txStallH := by
  decide
theorem test_decode_txClkTimeoutL :
    decodesTo (numBits 8 24 ++ numBits 18 0b010000000000010100) .txClkTimeoutL
      ∧ decodesTo (numBits 8 24 ++ numBits 18 0b111111111111110110) .txClkTimeoutL := by
  decide
theorem test_decode_txClkTimeoutH :
    decodesTo (numBits 8 25 ++ numBits 18 0b010000000000001100) .txClkTimeoutH
      ∧ decodesTo (numBits 8 25 ++ numBits 18 0b111111111111101110) .txClkTimeoutH := by
  decide
theorem test_decode_storeFailLatch :
    decodesTo (numBits 8 26 ++ numBits 18 0b000000010000000000) .storeFailLatch
      ∧ decodesTo (numBits 8 26 ++ numBits 18 0b111111111111111110) .storeFailLatch := by
  decide
theorem test_decode_destuff :
    decodesTo (numBits 8 27 ++ numBits 8 0b00000001) .destuff
      ∧ decodesTo (numBits 8 27 ++ numBits 8 0b11111111) .destuff := by
  decide
theorem test_decode_discardMalformed :
    decodesTo (numBits 8 28 ++ numBits 8 0b00000010) .discardMalformed
      ∧ decodesTo (numBits 8 28 ++ numBits 8 0b11111111) .discardMalformed := by
  decide
theorem test_decode_discardLength :
    decodesTo (numBits 8 29 ++ numBits 8 0b00000100) .discardLength
      ∧ decodesTo (numBits 8 29 ++ numBits 8 0b11111101) .discardLength := by
  decide
theorem test_decode_zoneDecode :
    decodesTo (numBits 8 30 ++ numBits 8 0b00000000) .zoneDecode
      ∧ decodesTo (numBits 8 30 ++ numBits 8 0b11110001) .zoneDecode := by
  decide
theorem test_decode_zoneForce :
    decodesTo (numBits 8 31 ++ numBits 8 0b01000000) .zoneForce
      ∧ decodesTo (numBits 8 31 ++ numBits 8 0b11110001) .zoneForce := by
  decide
theorem test_decode_statusDecode :
    decodesTo (numBits 8 32 ++ numBits 8 0b00001000) .statusDecode
      ∧ decodesTo (numBits 8 32 ++ numBits 8 0b11111001) .statusDecode := by
  decide
theorem test_decode_nextStatusRich :
    decodesTo (numBits 8 33 ++ numBits 8 0b00001000) .nextStatusRich
      ∧ decodesTo (numBits 8 33 ++ numBits 8 0b11011001) .nextStatusRich := by
  decide
theorem test_decode_nextStatusSimple :
    decodesTo (numBits 8 34 ++ numBits 8 0b00101000) .nextStatusSimple
      ∧ decodesTo (numBits 8 34 ++ numBits 8 0b11111001) .nextStatusSimple := by
  decide
theorem test_decode_updPublishStatus :
    decodesTo (numBits 8 35 ++ numBits 8 0b00001000) .updPublishStatus
      ∧ decodesTo (numBits 8 35 ++ numBits 8 0b11111001) .updPublishStatus := by
  decide
theorem test_decode_updPublishZone :
    decodesTo (numBits 8 36 ++ numBits 8 0b01000000) .updPublishZone
      ∧ decodesTo (numBits 8 36 ++ numBits 8 0b11110001) .updPublishZone := by
  decide
theorem test_decode_updStoreStatus :
    decodesTo (numBits 8 37 ++ numBits 8 0b10001000) .updStoreStatus
      ∧ decodesTo (numBits 8 37 ++ numBits 8 0b11111001) .updStoreStatus := by
  decide
theorem test_decode_updStoreZone :
    decodesTo (numBits 8 38 ++ numBits 8 0b11000000) .updStoreZone
      ∧ decodesTo (numBits 8 38 ++ numBits 8 0b11110001) .updStoreZone := by
  decide
theorem test_decode_trace :
    decodesTo (numBits 8 39 ++ numBits 8 0b00010000) .trace
      ∧ decodesTo (numBits 8 39 ++ numBits 8 0b11111111) .trace := by
  decide
/-! ## Decoding: functions and formats -/

theorem test_decode_stuff : decodesTo (numBits 8 40 ++ numBits 8 5 ++ wire 5 0b11110) (.stuff (wire 5 0b11110)) := by decide
theorem test_decode_txBuild : decodesTo (numBits 8 41 ++ wire 8 0b01100101) (.txBuild 0xa6) := by decide
theorem test_decode_statusLoad : decodesTo (numBits 8 42) .statusLoad := by decide
theorem test_decode_flagVRef : decodesTo (numBits 8 43 ++ wire 8 0b01111110) .flagVRef := by decide
theorem test_decode_rawFrame :
    decodesTo (numBits 8 44 ++ numBits 8 18 ++ wire 18 0b011111101001111110) (.rawFrame [true, false])
      ∧ decodesTo (numBits 8 44 ++ numBits 8 16 ++ wire 16 0b0111111001111110) (.rawFrame []) := by decide
/-- 95_test_vectors.md F3: bank 1, active bits 0 and 7, triggered bits 1 and 7. -/
theorem test_decode_zoneReport :
    decodesTo (numBits 8 45 ++ wire 32 0b01111110100000001000000101000001 ++ zeros 32 ++ wire 8 0b01111110)
      (.zoneReport true 0 0x81 0x82 0) := by decide
/-- 95_test_vectors.md P2 frame 3: a = b = 1, c = 0, t = 1, p = 0. -/
theorem test_decode_statusReport :
    decodesTo (numBits 8 46 ++ wire 72 0b011111100000000011000000100000000000000000000000000000000000000101111110)
      (.statusReport 0 true true false 0 true false 0) := by decide
/-- 45 rule R203's example code: 0xA6 goes out as 01100101. -/
theorem test_decode_cmdFrame :
    decodesTo (numBits 8 47 ++ wire 41 0b00000001000000100000001101100101011111100) (.cmdFrame 0xa6) := by decide
/-- 30 rule R98's examples. -/
theorem test_decode_inWord :
    decodesTo (numBits 8 48 ++ numBits 24 0x000a6e)
        (.inWord { InWord.zero with pclk := true, pdataI := true, cmdValid := true, cmdCode := 0xa6 })
      ∧ decodesTo (numBits 8 48 ++ numBits 24 0xff0005)
        (.inWord { InWord.zero with rst := true, pdataI := true, statusInit := 0xff }) := by decide
theorem test_decode_statusCode :
    decodesTo (numBits 8 49 ++ numBits 3 3) (.statusCode .triggered)
      ∧ decodesTo (numBits 8 49 ++ numBits 3 6) (.statusCode .armingPartial) := by decide
theorem test_decode_persistedByte : decodesTo (numBits 8 50 ++ numBits 8 0x09) (.persistedByte 9) := by decide
theorem test_decode_cmdResp : decodesTo (numBits 8 51 ++ numBits 2 2) (.cmdResp .busy) := by decide
theorem test_decode_txResult : decodesTo (numBits 8 52 ++ numBits 2 1) (.txResult .clockTimeout) := by decide
theorem test_decode_trcReason : decodesTo (numBits 8 53 ++ numBits 2 3) (.trcReason .not72) := by decide
theorem test_decode_errBits : decodesTo (numBits 8 54 ++ numBits 4 0b1000) (.errBits 0b1000) := by decide
theorem test_decode_refusals :
    refusal (numBits 8 55) = some .unknownRow ∧ refusal (numBits 7 0) = some .truncated
      ∧ refusal (numBits 8 0 ++ numBits 17 1) = some .truncated
      ∧ refusal (numBits 8 0 ++ numBits 18 0) = some .patternMismatch
      ∧ refusal (numBits 8 43 ++ wire 8 0b01111111) = some .patternMismatch
      ∧ refusal (numBits 8 44 ++ numBits 8 15) = some .badLength
      ∧ refusal (numBits 8 44 ++ numBits 8 129) = some .badLength
      ∧ refusal (numBits 8 49 ++ numBits 3 7) = some .reservedCode
      ∧ refusal (numBits 8 51 ++ numBits 2 3) = some .reservedCode
      ∧ refusal (numBits 8 52 ++ numBits 2 3) = some .reservedCode := by decide

/-! ## Steps: the sampler and the boundary detector (95_test_vectors.md 2.1 and 2.2) -/

/-- A state after reset whose next cycle has a falling edge where `pclk = 0`. -/
def edgeReady (w : Bits) (inside : Bool) (age : Int) : State :=
  { State.reset with pclkQ := true, w := w, inside := inside, age := age }

theorem test_S2_flag_completes : holds (after 0x000000 (edgeReady (wire 7 0b0111111) false 7))
    (fun t => t.w == wire 8 0b01111110 && t.inside && t.age == 0 && !t.txw && !t.pclkQ) = true := by decide
theorem test_S3_eviction :
    holds (after 0x000000 { edgeReady (ones 15 ++ [false]) false 3 with variant := Config.vToy })
      (fun t => t.w == ones 14 ++ [false, false] && t.age == 4) = true := by decide
theorem test_S4_short_window : holds (after 0x000000 (edgeReady (ones 6) false 6))
    (fun t => t.w.length == 7 && !t.inside && t.age == 7) = true := by decide
theorem test_S5_no_edge : holds (after 0x000000 { edgeReady (wire 7 0b0111111) false 7 with pclkQ := false })
    (fun t => t.w.length == 7 && t.age == 7 && !t.pclkQ) = true := by decide
theorem test_S6_rising_edge : holds (after 0x000002 { edgeReady (wire 7 0b0111111) false 7 with pclkQ := false })
    (fun t => t.w.length == 7 && t.age == 7 && t.pclkQ) = true := by decide
/-- S7: the sampler is suspended while a transmission is in flight, and the next bit goes on the line. -/
theorem test_S7_suspend : holds
    (after 0x000004 { edgeReady (ones 10) false 10 with
      txw := true, txState := .waitLow, txb := txBuild Config.vRef 0xa6, txIdx := 1, pdataOe := true })
    (fun t => t.w == [] && !t.txw && t.age == 10 && t.txState == .waitHigh && !t.pdataO && t.pdataOe) = true := by decide
/-- The window of vector B1. -/
def windowB1 : Bits := wire 8 0b01111110 ++ zeros 56 ++ wire 7 0b0111111
theorem test_B1_publish : holds (after 0x000000 (edgeReady windowB1 true 63))
    (fun t => t.fsValid && t.fs == windowB1 ++ [false] && !t.inside && t.age == 0) = true := by decide
/-- B1 gives the condition word at FRAME_PUBLISH, before the toggle. -/
theorem test_B1_condition_word : holds
    (runAll [execEdgeDetect, execWinAppend, execAgeInc, execFlagMatch] (beginCycle InWord.zero (edgeReady windowB1 true 63)))
    (fun t => condWordK t == 0x03802#18) = true := by decide
set_option maxRecDepth 4000 in
theorem test_B2_lost_sync : holds (after 0x000000 (edgeReady (zeros 128) true 128))
    (fun t => !t.inside && t.age == -1 && t.w.length == 128 && t.err == 0) = true := by decide
set_option maxRecDepth 4000 in
theorem test_B3_match_first : holds (after 0x000000 (edgeReady (zeros 121 ++ wire 7 0b0111111) false 128))
    (fun t => t.inside && t.age == 0) = true := by decide
set_option maxRecDepth 4000 in
theorem test_B4_oversize : holds (after 0x000000 (edgeReady (zeros 121 ++ wire 7 0b0111111) true 128))
    (fun t => !t.inside && t.age == 0 && !t.fsValid && t.err == 0b1000#4) = true := by decide
theorem test_B5_quiet : holds (after 0x000004 (edgeReady (ones 9) false 9))
    (fun t => t.txw && t.w.length == 10 && t.age == 10) = true := by decide
theorem test_B7_quiet_inside : holds (after 0x000004 (edgeReady (false :: ones 9) true 10))
    (fun t => !t.txw && t.w.length == 11) = true := by decide
theorem test_B8_quiet_ends : holds (after 0x000000 { edgeReady (ones 12) false 12 with txw := true })
    (fun t => !t.txw && t.w == ones 12 ++ [false]) = true := by decide

/-! ## Stuffing (42 rule R157 and 95_test_vectors.md 2.3) -/

theorem test_stuff_table :
    stuff 5 (ones 5) = wire 6 0b111110 ∧ stuff 5 (wire 6 0b111110) = wire 7 0b1111100
      ∧ stuff 5 (ones 11) = wire 13 0b1111101111101 ∧ stuff 5 (wire 8 0b01111110) = wire 9 0b011111010
      ∧ stuff 5 (wire 15 0b110111110111111) = wire 17 0b11011111001111101
      ∧ stuff 6 (wire 8 0b11111110) = wire 9 0b111111010 ∧ stuff 6 (wire 7 0b1111100) = wire 7 0b1111100 := by decide
theorem test_destuff_table :
    destuff 5 (wire 7 0b1111100) = wire 6 0b111110 ∧ destuff 5 (wire 14 0b11111011111010) = wire 12 0b111111111110
      ∧ destuff 5 (wire 8 0b01111110) = wire 8 0b01111110 ∧ destuff 5 (ones 6) = ones 6
      ∧ destuff 5 (wire 13 0b0111110111110) = wire 11 0b01111111111
      ∧ destuff 6 (wire 8 0b01111110) = wire 7 0b0111111 := by decide
theorem test_exec_stuff : holds (exec (.stuff (ones 10)) State.reset)
    (fun t => t.net.result == wire 12 0b111110111110) = true := by decide

/-! ## The frame decoder (95_test_vectors.md 2.4) -/

/-- A snapshot is held. -/
def held (fs : Bits) (st : AlarmStatus) : State := { State.reset with fsValid := true, fs := fs, status := st }

/-- A frame of 72 bits: the layout of 30 rule R85, `last` being the octet before the closing flag. -/
def report (o1 o2 o3 last : Nat) : Bits :=
  wire 8 0b01111110 ++ wire 8 o1 ++ wire 8 o2 ++ wire 8 o3 ++ zeros 24 ++ wire 8 last ++ wire 8 0b01111110

theorem test_F1_zone : holds (after 0x001004 (held (report 0 0b00100000 0 0) .disarmed))
    (fun t => t.out.zone == some { active := 0x0004, trig := 0 } && !t.fsValid
      && t.out.trc.map TraceWord.reason == some .zoneReport && t.out.st == none) = true := by decide
theorem test_F2_bank : holds (after 0x000004 (held (report 0b10000000 0b00100000 0 0) .disarmed))
    (fun t => t.out.zone == some { active := 0x0400, trig := 0 } && t.out.trc == none) = true := by decide
theorem test_F3_masks : holds (after 0x000004 (held (report 0b10000000 0b10000001 0b01000001 0) .armedTotal))
    (fun t => t.out.zone == some { active := 0x8100, trig := 0x8200 } && t.status == .armedTotal) = true := by decide
theorem test_F3_events : zoneEvents { active := 0x8100, trig := 0x8200 }
    = [(9, .activated), (16, .activated), (10, .triggered), (16, .triggered)] := by decide
theorem test_F4_forced : holds
    (after 0x000004 { held (report 0b10000000 0b10000001 0b01000001 0) .armedTotal with
      variant := { Config.vRef with zoneTrigForces := true } })
    (fun t => t.status == .triggered && t.out.st == some .triggered && t.out.store == some 3) = true := by decide
theorem test_F5_malformed : holds
    (after 0x001004 (held (wire 8 0b01111110 ++ zeros 57 ++ wire 8 0b01111110) .disarmed))
    (fun t => t.out.trc.map TraceWord.reason == some .notMultipleOf8 && t.out.zone == none && t.err == 0) = true := by decide
theorem test_F6_length : holds
    (after 0x001004 (held (wire 8 0b01111110 ++ zeros 48 ++ wire 8 0b01111110) .disarmed))
    (fun t => t.out.trc.map TraceWord.reason == some .not72 && t.out.st == none && !t.fsValid) = true := by decide
theorem test_F7_triggered : holds (after 0x000004 (held (report 0 0b11100000 0 1) .disarmed))
    (fun t => t.out.st == some .triggered && t.out.store == some 3 && t.out.zone == none) = true := by decide
theorem test_F8_chime : holds (after 0x000004 (held (report 0 0b01100000 0 1) .triggered))
    (fun t => t.status == .chime && t.out.store == some 4) = true := by decide
theorem test_F9_line7 : holds (after 0x000004 (held (report 0 0b11000000 0 1) .triggered))
    (fun t => t.status == .triggered && t.out.st == some .triggered && t.out.store == none) = true := by decide
/-- The snapshot of vector F10. -/
def frameF10 : Bits := wire 15 0b011111101111100 ++ zeros 48 ++ [true] ++ wire 8 0b01111110
theorem test_F10_no_stuffing : holds
    (after 0x001004 { held frameF10 .armedPartial with variant := { Config.vRef with stuffEn := false } })
    (fun t => t.status == .disarmed && t.out.store == some 0
      && t.out.trc.map (fun x => x.dst.length) == some 72) = true := by decide
theorem test_F10_stuffing : holds (after 0x001004 (held frameF10 .armedPartial))
    (fun t => t.status == .armedPartial && t.out.trc.map TraceWord.reason == some .notMultipleOf8) = true := by decide
/-- 95_test_vectors.md P6, frame T1: c = 1, t = 1 gives ArmingTotal in the simple mode. -/
theorem test_P6_simple : holds
    (after 0x000004 { held (report 0 0b00100000 0b10000000 1) .armedPartial with variant := Config.vSimple })
    (fun t => t.status == .armingTotal && t.out.store == some 5) = true := by decide

/-! ## The alarm status (95_test_vectors.md 2.5) -/

/-- STATUS_UPDATE(ArmingTotal) from a Status Report, with the register at `st`. -/
def updating (st : AlarmStatus) : State :=
  { State.reset with
    status := st
    net := { Nets.zero with decoding := true, dst := report 0 0 0 1, nextStatus := .armingTotal } }
theorem test_A1_update : holds (runAll [exec .updStoreStatus, exec .updPublishStatus] (updating .armingPartial))
    (fun t => t.status == .armingTotal && t.out.st == some .armingTotal && t.out.store == some 5) = true := by decide
theorem test_A2_update_again : holds (runAll [exec .updStoreStatus, exec .updPublishStatus] (updating .armingTotal))
    (fun t => t.status == .armingTotal && t.out.st == some .armingTotal && t.out.store == none) = true := by decide
theorem test_A3_load : holds (after 0x030001 State.reset) (fun t => t.status == .triggered) = true := by decide
theorem test_A4_A5_clamp : holds (after 0xff0001 State.reset) (fun t => t.status == .armingPartial) = true
    ∧ holds (after 0x090001 State.reset) (fun t => t.status == .armingPartial) = true := by decide
theorem test_A6_store_fail : holds (after 0x004006 State.reset)
    (fun t => t.err == 0b0100#4 && t.status == .disarmed) = true := by decide

/-! ## Command port and encoder (95_test_vectors.md 2.6) -/

theorem test_txBuild_table :
    txBuild Config.vRef 0x00 = wire 41 0b00000001000000100000001100000000011111100
      ∧ txBuild Config.vRef 0xa6 = wire 41 0b00000001000000100000001101100101011111100
      ∧ txBuild Config.vRef 0x3c = wire 41 0b00000001000000100000001100111100011111100
      ∧ txBuild Config.vRef 0x1f = wire 42 0b000000010000001000000011111011000011111100
      ∧ txBuild Config.vRef 0xff = wire 43 0b0000000100000010000000111110111110011111100 := by decide
theorem test_txBuild_unstuffed : txBuild { Config.vRef with stuffEn := false } 0xff
    = wire 41 0b00000001000000100000001111111111011111100 := by decide
theorem test_E1_accept : holds (after 0x0003ce State.reset)
    (fun t => t.out.cmdResp == .accepted && t.cpValid && t.cpCode == 0x3c && t.wtCnt == 1 && t.pclkQ) = true := by decide
theorem test_E2_busy : holds (after 0x0003ce { State.reset with cpValid := true, cpCode := 0x11, wtCnt := 5 })
    (fun t => t.out.cmdResp == .busy && t.cpCode == 0x11 && t.wtCnt == 6) = true := by decide
theorem test_E3_load : holds (after 0x0003ce { State.reset with txw := true, w := ones 10, age := 10 })
    (fun t => t.out.cmdResp == .accepted && !t.cpValid && t.cpCode == 0x3c && t.txState == .waitLow
      && t.txb.length == 41 && t.txIdx == 0 && !t.pdataOe) = true := by decide

/-! ## The transmitter (95_test_vectors.md 2.7) -/

/-- The transmission of 0x3C at bit `idx`. -/
def sending (st : TxState) (idx ct : Nat) (o oe : Bool) : State :=
  { State.reset with
    txb := txBuild Config.vRef 0x3c, txState := st, txIdx := idx, ctCnt := ct, pdataO := o, pdataOe := oe }
theorem test_T1_drive : holds (after 0x000004 (sending .waitLow 26 7 false true))
    (fun t => t.pdataO && t.pdataOe && t.txState == .waitHigh && t.ctCnt == 0) = true := by decide
theorem test_T2_advance : holds (after 0x000006 (sending .waitHigh 26 2 true true))
    (fun t => t.txIdx == 27 && t.txState == .waitLow && t.ctCnt == 0 && t.pdataO && t.pdataOe) = true := by decide
theorem test_T3_release : holds (after 0x000006 (sending .waitHigh 40 2 false true))
    (fun t => t.out.txDone == some .sent && !t.pdataOe && t.txState == .idle && t.txb == [] && t.txIdx == 0) = true := by
  decide
theorem test_T4_stall : holds (after 0x000004 (sending .waitHigh 40 998 false true))
    (fun t => t.ctCnt == 999 && t.txState == .waitHigh && t.out.txDone == none) = true := by decide
theorem test_T5_clock_timeout : holds
    (after 0x000004 { sending .waitHigh 40 999 false true with cpValid := true, cpCode := 0x77 })
    (fun t => t.out.txDone == some .clockTimeout && t.err == 0b0001#4 && !t.pdataOe && t.txState == .idle && t.cpValid)
    = true := by decide
theorem test_T5_condition_word :
    condWordK { sending .waitHigh 40 999 false true with cpValid := true, cpCode := 0x77 } = 0x1808c := by decide
/-- 46 rule R224 in the low wait: the clock stands still high before a bit is driven (95_test_vectors.md P5b, cycle 45). -/
theorem test_P5b_clock_timeout : holds
    (after 0x000006 { sending .waitLow 0 3 false false with variant := Config.vT })
    (fun t => t.out.txDone == some .clockTimeout && t.err == 0b0001#4 && t.txState == .idle) = true := by decide
theorem test_P5b_stall : holds (after 0x000006 { sending .waitLow 0 2 false false with variant := Config.vT })
    (fun t => t.ctCnt == 3 && t.txState == .waitLow && !t.pdataOe) = true := by decide
theorem test_T6_wait_window : holds (after 0x000006 { State.reset with cpValid := true, cpCode := 9, wtCnt := 999998 })
    (fun t => t.wtCnt == 999999 && t.cpValid) = true := by decide
theorem test_T7_window_timeout : holds
    (after 0x000006 { State.reset with cpValid := true, cpCode := 9, wtCnt := 999999 })
    (fun t => t.out.txDone == some .windowTimeout && t.err == 0b0010#4 && !t.cpValid && t.wtCnt == 0 && !t.pdataOe)
    = true := by decide

/-! ## Errors and reset (95_test_vectors.md 2.8 and 2.9) -/

theorem test_Xa_clear : holds (after 0x002006 { State.reset with err := 0b1011 }) (fun t => t.err == 0#4) = true := by decide
theorem test_Xb_set_wins : holds (after 0x006006 { State.reset with err := 0b1011 })
    (fun t => t.err == 0b0100#4) = true := by decide
/-- The state of vector Z1. -/
def stateZ1 : State :=
  { State.reset with
    pclkQ := true, w := ones 50, inside := true, age := 40, fsValid := true, status := .triggered, err := 0b1111,
    cpValid := true, cpCode := 0x55, txState := .waitHigh, txb := txBuild Config.vRef 0x55, txIdx := 7, ctCnt := 5,
    wtCnt := 6, pdataO := true, pdataOe := true }
theorem test_Z1_reset : holds (after 0x094129 stateZ1)
    (fun t => t == State.afterReset Config.vRef .armingPartial) = true := by decide
theorem test_Z2_no_edge_after_reset : holds
    (runSteps 2 { State.reset with stim := [0x000003, 0x000000] }) (fun t => t.w == [] && !t.pclkQ) = true := by decide

/-! ## The format rows and the host's words -/

theorem test_exec_flag : holds (exec .flagVRef State.reset)
    (fun t => t.w == wire 8 0b01111110 && t.inside && t.age == 0) = true := by decide
theorem test_exec_rawFrame : holds (exec (.rawFrame [true]) State.reset)
    (fun t => !t.inside && t.age == 0 && t.w.length == 17) = true := by decide
theorem test_exec_zoneReport : holds (exec (.zoneReport true 0 0x81 0x82 0) State.reset)
    (fun t => t.out.zone == some { active := 0x8100, trig := 0x8200 }) = true := by decide
theorem test_exec_statusReport : holds (exec (.statusReport 0 true true true 0 false false 0) State.reset)
    (fun t => t.status == .triggered && t.out.store == some 3) = true := by decide
theorem test_exec_codes :
    holds (exec (.persistedByte 9) State.reset) (fun t => t.status == .armingPartial) = true
      ∧ holds (exec (.errBits 0b0010) { State.reset with err := 0b1000 }) (fun t => t.err == 0b1010#4) = true := by decide
theorem test_withFetchWord_publish : holds (step (State.reset.withFetchWord 24 0x003802))
    (fun t => t.fsValid && t.fs == flagBits) = true := by decide
theorem test_withFetchWord_timeout : holds (step (State.reset.withFetchWord 24 0x01000c))
    (fun t => t.out.txDone == some .clockTimeout) = true := by decide

/-! ## Witnesses: concrete states that meet the hypotheses of each statement -/

/-- A transmission of 0xA6 in flight under `V_T`, waiting for the clock to fall before its first bit. -/
def flying : State :=
  { State.reset with
    variant := Config.vT, w := ones 10, age := 10, txw := true, txState := .waitLow, txb := txBuild Config.vT 0xa6 }

/-- A frame of `C` bits has just been published under `V_TOY`. -/
def published : State :=
  { State.reset with
    variant := Config.vToy, w := flagBits ++ flagBits, fsValid := true, fs := flagBits ++ flagBits }

/-- The receiver is inside a frame whose opening flag is the whole window. -/
def insideFrame : State := { State.reset with w := flagBits, inside := true, pclkQ := true }

/-- A Variant whose window is the flag. -/
def vSmall : Variant := { Config.vRef with cap := 8, quiet := 8 }

/-- A DECODE cycle with the destuffed frame `d`. -/
def decoding (d : Bits) : State := { State.reset with net := { Nets.zero with decoding := true, dst := d } }

/-- An input word with the panel clock high. -/
def clockHigh : InWord := { InWord.zero with pclk := true }

theorem flying_inv : Inv flying where
  variantOk := by decide
  sampler := ⟨by decide, by decide, by decide, by decide, by decide⟩
  frame := ⟨by decide, by decide, by decide, by decide, by decide⟩
  transmitter := ⟨fun _ => ⟨by decide, 0xa6, rfl⟩, by decide, by decide, by decide, by decide, by decide, by decide,
    by decide⟩

theorem published_inv : Inv published where
  variantOk := by decide
  sampler := ⟨by decide, by decide, by decide, by decide, by decide⟩
  frame := ⟨by decide, by decide, by decide, by decide, by decide⟩
  transmitter := ⟨fun busy => absurd rfl busy, by decide, by decide, by decide, by decide, by decide, by decide, by decide⟩

theorem insideFrame_inv : Inv insideFrame where
  variantOk := by decide
  sampler := ⟨by decide, by decide, by decide, by decide, by decide⟩
  frame := ⟨by decide, by decide, by decide, by decide, by decide⟩
  transmitter := ⟨fun busy => absurd rfl busy, by decide, by decide, by decide, by decide, by decide, by decide, by decide⟩

set_option maxRecDepth 4000 in
theorem witness_DecodeEncode :
    (Instr.stuff (ones 255)).wf = true ∧ (Instr.rawFrame (zeros 112)).wf = true ∧ Instr.wf .reset = true := by decide

theorem witness_StepRunsDecodedWord :
    (∃ rest, State.stim { State.reset with stim := [0x000a6e, 0x000001] } = 0x000a6e :: rest)
      ∧ State.reset.stim = [] := ⟨⟨_, rfl⟩, rfl⟩

theorem witness_CycleIsTheTable :
    Config.vRef.wf = true ∧ insideSpec State.reset = true ∧ insideSpec { State.reset with age := -1 } = true
      ∧ insideSpec { State.reset with age := 128, inside := true } = true
      ∧ insideSpec (sending .waitHigh 40 999 false true) = true := by decide

theorem witness_ExclusiveGroups :
    State.reset.inp.rst = false ∧ (sending .waitHigh 40 999 false true).inp.rst = false := by decide

theorem witness_CycleRefusals :
    Variant.wf { Config.vRef with run := 0 } = false ∧ Config.vRef.wf = true
      ∧ insideSpec { State.reset with age := 129 } = false ∧ insideSpec { State.reset with age := -2 } = false
      ∧ insideSpec (sending .waitHigh 41 0 false true) = false
      ∧ insideSpec { State.reset with txw := true, inside := true } = false := by decide

theorem witness_UnselectedChangesNothing :
    Instr.sample ∈ kRows ∧ firesK .sample State.reset = false ∧ Instr.trace ∈ jRows
      ∧ firesJ .trace (decoding []) = false ∧ State.reset.inp.rst = false := by decide

/-- A cycle at which the sampler closes a frame although `age` is `a`. -/
def closing (a : Int) (w : Bits) : State :=
  { atSample false State.reset with
    w := w, inside := true, age := a, net := { (atSample false State.reset).net with hit := true } }

theorem witness_BitReadsOutsideStop :
    (closing (-9) []).inp.rst = false ∧ (closing (-9) []).net.fall = true ∧ (closing (-9) []).txState = .idle
      ∧ (closing (-9) []).net.hit = true ∧ (closing (-9) []).inside = true
      ∧ (closing (-9) []).age + (closing (-9) []).variant.n < 0
      ∧ (sending .waitLow 41 0 false true).inp.pclk = false
      ∧ (sending .waitLow 41 0 false true).txb.length ≤ (sending .waitLow 41 0 false true).txIdx := by decide

theorem witness_ErrClearResult :
    (beginCycle { InWord.zero with errClr := true } State.reset).inp.rst = false
      ∧ (beginCycle { InWord.zero with errClr := true } State.reset).inp.errClr = true
      ∧ (∃ t, exec (.inWord { InWord.zero with errClr := true, storeFail := true }) { State.reset with err := 0b1011 }
          = .next t ∧ (t.err == 0b0100#4) = true)
      ∧ ∃ t, exec (.inWord { InWord.zero with errClr := true })
          { edgeReady (true :: wire 7 0b0111111) true 8 with err := 0b0011 } = .next t ∧ (t.err == 0b1000#4) = true :=
  ⟨by decide, by decide, exists_of_holds (by decide), exists_of_holds (by decide)⟩

theorem witness_EdgeDetectResult : (beginCycle clockHigh insideFrame).inp.rst = false := by decide

theorem witness_WinAppendAndAgeIncResult :
    let short := atSample true { State.reset with variant := vSmall, w := ones 7 }
    let full := atSample true { State.reset with variant := vSmall, w := ones 8 }
    short.inp.rst = false ∧ short.net.fall = true ∧ short.txState = .idle ∧ short.w.length ≠ short.variant.cap
      ∧ full.inp.rst = false ∧ full.net.fall = true ∧ full.txState = .idle ∧ full.w.length = full.variant.cap := by decide

theorem witness_FlagMatchResult :
    (atSample false insideFrame).inp.rst = false ∧ (atSample false insideFrame).net.fall = true
      ∧ (atSample false insideFrame).txState = .idle := by decide

theorem witness_FramePublishResult :
    let s := closing 0 flagBits
    let whole := closing 64 (windowB1 ++ [false])
    s.inp.rst = false ∧ s.net.fall = true ∧ s.txState = .idle ∧ s.net.hit = true ∧ s.inside = true
      ∧ s.age + s.variant.n = (8 : Nat) ∧ 8 ≤ s.w.length
      ∧ whole.age + whole.variant.n = (72 : Nat) ∧ 72 ≤ whole.w.length := by decide

theorem witness_FrameDropResult :
    let s := closing 1 flagBits
    s.inp.rst = false ∧ s.net.fall = true ∧ s.txState = .idle ∧ s.net.hit = true ∧ s.inside = true
      ∧ (s.w.length : Int) < s.age + s.variant.n := by decide

theorem witness_ToggleAndRecoverResult :
    let hit := closing 0 flagBits
    let lost := { atSample false State.reset with age := 129 }
    hit.inp.rst = false ∧ hit.net.fall = true ∧ hit.txState = .idle ∧ hit.net.hit = true
      ∧ lost.inp.rst = false ∧ lost.net.fall = true ∧ lost.txState = .idle ∧ lost.net.hit = false
      ∧ (lost.variant.cap : Int) < lost.age := by decide

theorem witness_QuietDetectResult :
    (atSample true { State.reset with w := ones 10 }).inp.rst = false
      ∧ (atSample true { State.reset with w := ones 10 }).net.fall = true
      ∧ (atSample true { State.reset with w := ones 10 }).txState = .idle := by decide

theorem witness_SampleResult :
    let s := atSample false { insideFrame with age := -1 }
    s.inp.rst = false ∧ s.net.fall = true ∧ s.txState = .idle ∧ -1 ≤ s.age := by decide

theorem witness_SampleSuspendResult :
    (atSample false flying).inp.rst = false ∧ (atSample false flying).net.fall = true
      ∧ (atSample false flying).txState ≠ .idle := by decide

/-- Nine zeros, `C + 1` of them, from inside a frame with `age = C` and from outside one with `age = -1`. -/
theorem witness_LostSyncRecovers :
    let lost : State := { State.reset with variant := vSmall, inside := true, age := 8 }
    let fresh : State := { State.reset with variant := vSmall, age := -1 }
    (∃ t, quietSamples (zeros 9) lost = some t) ∧ (∃ t, quietSamples (zeros 9) fresh = some t)
      ∧ lost.txState = .idle ∧ -1 ≤ lost.age ∧ lost.age ≤ lost.variant.cap ∧ (lost.inside = true → 0 ≤ lost.age)
      ∧ fresh.txState = .idle ∧ -1 ≤ fresh.age ∧ fresh.age ≤ fresh.variant.cap ∧ (fresh.inside = true → 0 ≤ fresh.age)
      ∧ (zeros 9).length = vSmall.cap + 1 :=
  ⟨Option.isSome_iff_exists.mp (by decide), Option.isSome_iff_exists.mp (by decide), by decide⟩

theorem witness_DestuffResult :
    (decoding []).net.decoding = true ∧ (decoding []).variant.stuffEn = true := by decide

theorem witness_StuffResult : 1 ≤ Config.vRef.run ∧ 1 ≤ (1 : Nat) := by decide

theorem witness_DestuffUndoesStuff : 1 ≤ (1 : Nat) ∧ stuff 1 (ones 2) = wire 4 0b1010 := by decide

theorem witness_DiscardResult :
    (decoding (zeros 73)).net.decoding = true ∧ (decoding (zeros 73)).net.dst.length % 8 ≠ 0
      ∧ (decoding []).net.dst.length % 8 = 0 ∧ (decoding []).net.dst.length ≠ 72
      ∧ (decoding (zeros 80)).net.dst.length % 8 = 0 ∧ (decoding (zeros 80)).net.dst.length ≠ 72 := by decide

theorem witness_ZoneDecodeResult :
    let plain := decoding (report 0 0b00100000 0 0)
    let forcing : State := { decoding (report 0 0 0b00000001 0) with variant := Config.vSimple }
    plain.net.decoding = true ∧ plain.net.dst.length = 72 ∧ plain.net.dst.getD plain.variant.idxDisc false = false
      ∧ forcing.net.decoding = true ∧ forcing.net.dst.length = 72
      ∧ forcing.net.dst.getD forcing.variant.idxDisc false = false
      ∧ (forcing.variant.zoneTrigForces
          && (List.range 8).any fun k => forcing.net.dst.getD (forcing.variant.idxActive + 8 + k) false) = true := by
  decide

theorem witness_ZoneEventOrder :
    (1, ZoneKind.activated) ∈ zoneEvents { active := 0x0001, trig := 0x8000 }
      ∧ (16, ZoneKind.triggered) ∈ zoneEvents { active := 0x0001, trig := 0x8000 } := by decide

theorem witness_StatusDecodeResult :
    let rich := decoding (report 0 0b11000000 0 1)
    let simple : State := { rich with variant := Config.vSimple }
    rich.net.decoding = true ∧ rich.net.dst.length = 72 ∧ rich.net.dst.getD rich.variant.idxDisc false = true
      ∧ rich.variant.decodeMode = .rich ∧ simple.net.dst.getD simple.variant.idxDisc false = true
      ∧ simple.variant.decodeMode = .simple := by decide

theorem witness_NextStatusTables :
    nextStatusRich .disarmed true true true false false = .triggered
      ∧ nextStatusRich .triggered true true false true false = .triggered := by decide

theorem witness_StatusUpdateResult :
    let forcing : State := { decoding (report 0 0 0b10000000 0) with variant := Config.vSimple }
    (updating .disarmed).net.decoding = true ∧ (updating .disarmed).net.dst.length = 72
      ∧ (updating .disarmed).net.dst.getD (updating .disarmed).variant.idxDisc false = true
      ∧ forcing.net.decoding = true ∧ forcing.net.dst.length = 72
      ∧ forcing.net.dst.getD forcing.variant.idxDisc false = false ∧ forcing.variant.zoneTrigForces = true
      ∧ ((List.range 8).any fun k => forcing.net.dst.getD (forcing.variant.idxActive + 8 + k) false) = true := by decide

theorem witness_TraceResult :
    let s := { decoding [] with inp := { InWord.zero with dbgTraceEn := true } }
    s.net.decoding = true ∧ s.inp.dbgTraceEn = true := by decide

theorem witness_DecodeResult :
    (held (report 0 0b11000000 0 1) .triggered).inp.rst = false
      ∧ (held (report 0 0b11000000 0 1) .triggered).fsValid = true := by decide

theorem witness_ResetLeaves :
    (beginCycle { InWord.zero with rst := true } stateZ1).inp.rst = true ∧ stateZ1.variant.wf = true := by decide

theorem witness_StatusLoadResult : (beginCycle { InWord.zero with rst := true } stateZ1).inp.rst = true := by decide

theorem witness_StoreFailResult :
    let s := beginCycle { InWord.zero with storeFail := true } State.reset
    s.inp.rst = false ∧ s.inp.storeFail = true := by decide

theorem witness_CommandPortResult :
    let free := beginCycle { InWord.zero with cmdValid := true, cmdCode := 0xff } State.reset
    let taken := beginCycle { InWord.zero with cmdValid := true } { State.reset with cpValid := true }
    free.inp.rst = false ∧ free.inp.cmdValid = true ∧ free.cpValid = false
      ∧ taken.inp.rst = false ∧ taken.inp.cmdValid = true ∧ taken.cpValid = true := by decide

theorem witness_TxBuildResult :
    Config.vRef.wf = true ∧ Variant.wf { Config.vRef with stuffEn := false } = true := by decide

theorem witness_TxLoadResult :
    let s : State := { State.reset with cpValid := true, txw := true, w := ones 10 }
    s.inp.rst = false ∧ s.txState = .idle ∧ s.cpValid = true ∧ s.txw = true := by decide

theorem witness_TxWindowWaitResult :
    let wait : State := { State.reset with cpValid := true, wtCnt := 999998 }
    let end_ : State := { State.reset with cpValid := true, wtCnt := 999999 }
    wait.inp.rst = false ∧ wait.txState = .idle ∧ wait.cpValid = true ∧ wait.txw = false
      ∧ wait.wtCnt + 1 < wait.variant.windowTimeout ∧ end_.variant.windowTimeout ≤ end_.wtCnt + 1 := by decide

theorem witness_TxDriveResult :
    let s := sending .waitLow 40 0 false true
    s.txIdx < s.txb.length ∧ s.inp.rst = false ∧ s.txState = .waitLow ∧ s.inp.pclk = false := by decide

theorem witness_TxAdvanceAndReleaseResult :
    let next := beginCycle clockHigh (sending .waitHigh 39 0 false true)
    let last := beginCycle clockHigh (sending .waitHigh 40 0 false true)
    next.inp.rst = false ∧ next.txState = .waitHigh ∧ next.inp.pclk = true ∧ next.txIdx + 1 < next.txb.length
      ∧ last.inp.rst = false ∧ last.txState = .waitHigh ∧ last.inp.pclk = true ∧ last.txIdx + 1 = last.txb.length := by
  decide

theorem witness_TxStallAndTimeoutResult :
    let low := beginCycle clockHigh (sending .waitLow 3 998 false true)
    let lowEnd := beginCycle clockHigh (sending .waitLow 3 999 false true)
    let high := beginCycle InWord.zero (sending .waitHigh 3 998 false true)
    let highEnd := beginCycle InWord.zero (sending .waitHigh 3 999 false true)
    low.txState = .waitLow ∧ low.inp.pclk = true ∧ low.ctCnt + 1 < low.variant.clkTimeout
      ∧ lowEnd.txState = .waitLow ∧ lowEnd.inp.pclk = true ∧ lowEnd.variant.clkTimeout ≤ lowEnd.ctCnt + 1
      ∧ high.txState = .waitHigh ∧ high.inp.pclk = false ∧ high.ctCnt + 1 < high.variant.clkTimeout
      ∧ highEnd.txState = .waitHigh ∧ highEnd.inp.pclk = false ∧ highEnd.variant.clkTimeout ≤ highEnd.ctCnt + 1 := by
  decide

theorem witness_WireFormatsResult :
    State.reset.variant.wf = true ∧ insideSpec State.reset = true ∧ State.reset.txState = .idle
      ∧ State.reset.cpValid = false
      ∧ (State.reset.variant.flag <:+ State.reset.variant.flag ++ [true] ++ State.reset.variant.flag) := by
  refine ⟨by decide, by decide, by decide, by decide, ?_⟩
  exact List.suffix_append _ _

theorem witness_WireFormatsStop :
    Variant.wf { Config.vRef with run := 0 } = false ∧ Config.vRef.wf = true ∧ flagBits ≠ []
      ∧ insideSpec { State.reset with age := 129 } = false ∧ insideSpec { State.reset with age := -2 } = false := by decide

theorem witness_ZoneReportFormatResult : State.reset.variant = Config.vRef := rfl

theorem witness_StatusReportFormatResult : State.reset.variant = Config.vRef := rfl

theorem witness_SamplerInvariants :
    Config.vRef.wf = true ∧ SamplerInv insideFrame ∧ Instr.sample ∈ Instr.reset :: stageGroups.flatten
      ∧ (∃ t, exec .sample (atSample true insideFrame) = .next t ∧ (t.age == 1) = true)
      ∧ ∃ t, step { insideFrame with stim := [0x000000] } = .next t ∧ (t.w.length == 9) = true :=
  ⟨by decide, insideFrame_inv.sampler, by decide, exists_of_holds (by decide), exists_of_holds (by decide)⟩

/-- The boundary values of the register, and a step at `age = C` that leaves -1. -/
theorem witness_AgeFitsItsRegister :
    (-1 : Int) ≤ -1 ∧ (129 : Int) ≤ Config.vRef.cap + 1
      ∧ (atSample true insideFrame).inp.rst = false ∧ (atSample true insideFrame).net.fall = true
      ∧ (atSample true insideFrame).txState = .idle ∧ SamplerInv { State.reset with pclkQ := true, age := 128 }
      ∧ ∃ t, after 0x000000 { State.reset with pclkQ := true, age := 128 } = .next t ∧ (t.age == -1) = true :=
  ⟨by decide, by decide, by decide, by decide, by decide, ⟨by decide, by decide, by decide, by decide, by decide⟩,
    exists_of_holds (by decide)⟩

theorem witness_InvKept :
    Inv flying ∧ Inv published ∧ Inv insideFrame
      ∧ (∃ t, after 0x000000 flying = .next t ∧ t.pdataOe = true)
      ∧ (∃ t, after 0x000000 published = .next t ∧ (!t.fsValid) = true)
      ∧ ∃ t, after 0x000000 insideFrame = .next t ∧ t.inside = true :=
  ⟨flying_inv, published_inv, insideFrame_inv, exists_of_holds (by decide), exists_of_holds (by decide),
    exists_of_holds (by decide)⟩

theorem witness_InvAtReset : Config.vRef.wf = true ∧ Config.vToy.wf = true := by decide

theorem witness_GoodStatesStep : Inv flying ∧ Inv published := ⟨flying_inv, published_inv⟩

theorem witness_MemoryKept :
    Memory.wf published = true
      ∧ ∃ t, after 0x000000 { published with pclkQ := true } = .next t ∧ (t.w.length == 16) = true :=
  ⟨by decide, exists_of_holds (by decide)⟩

theorem witness_TransmissionEnds : Inv flying ∧ flying.txState ≠ .idle := ⟨flying_inv, by decide⟩

theorem witness_LineOwnership :
    (∃ t, exec (.inWord InWord.zero) State.reset = .next t ∧ (t.txState == .idle) = true)
      ∧ (∃ t, exec (.inWord { clockHigh with cmdValid := true })
            { State.reset with txw := true, w := ones 10 } = .next t ∧ (t.txState != .idle) = true)
      ∧ (∃ t, exec (.inWord InWord.zero) flying = .next t ∧ (t.pdataOe && !flying.pdataOe) = true)
      ∧ ∃ t, exec (.inWord clockHigh) (sending .waitHigh 26 999 true true) = .next t ∧ t.pdataO = true :=
  ⟨exists_of_holds (by decide), exists_of_holds (by decide), exists_of_holds (by decide), exists_of_holds (by decide)⟩

theorem witness_InFlightImmutable :
    (∃ t, exec (.inWord InWord.zero) flying = .next t ∧ (t.txState != .idle) = true)
      ∧ (∃ t, exec (.inWord clockHigh) (sending .waitHigh 40 0 false true) = .next t ∧ (t.txState == .idle) = true)
      ∧ ∃ t, exec (.inWord { clockHigh with cmdValid := true, cmdCode := 0x3c })
          { State.reset with txw := true, w := ones 10 } = .next t ∧ (t.txb.length == 41) = true :=
  ⟨exists_of_holds (by decide), exists_of_holds (by decide), exists_of_holds (by decide)⟩

theorem witness_StatusWriters :
    (∃ t, exec (.inWord InWord.zero) (held (report 0 0b11100000 0 1) .disarmed) = .next t
        ∧ (t.status != .disarmed) = true)
      ∧ ∃ t, exec .cmdAccept (beginCycle { InWord.zero with cmdValid := true } State.reset) = .next t ∧ t.cpValid = true :=
  ⟨exists_of_holds (by decide), exists_of_holds (by decide)⟩

theorem witness_ReceiverWriters :
    (∃ t, exec (.inWord clockHigh) insideFrame = .next t ∧ (t.age == 0) = true)
      ∧ ∃ t, exec .decode (held (report 0 0 0 0) .disarmed) = .next t ∧ (!t.fsValid) = true :=
  ⟨exists_of_holds (by decide), exists_of_holds (by decide)⟩

theorem witness_StickyErrors :
    (∃ t, exec (.inWord { InWord.zero with rst := true }) stateZ1 = .next t ∧ (t.err == 0#4) = true)
      ∧ ∃ t, exec (.inWord { InWord.zero with errClr := true, storeFail := true })
          { State.reset with err := 0b1011 } = .next t ∧ (t.err == 0b0100#4) = true :=
  ⟨exists_of_holds (by decide), exists_of_holds (by decide)⟩

theorem witness_PulseDrivers :
    (∃ t, exec (.inWord { InWord.zero with rst := true }) stateZ1 = .next t ∧ (t.out == Pulses.zero) = true)
      ∧ (∃ t, exec (.inWord { clockHigh with cmdValid := true }) State.reset = .next t
            ∧ (t.out.cmdResp == .accepted) = true)
      ∧ (∃ t, exec (.inWord clockHigh) (sending .waitHigh 40 0 false true) = .next t
            ∧ (t.out.txDone == some .sent) = true)
      ∧ (∃ t, exec (.inWord InWord.zero) (sending .waitHigh 40 999 false true) = .next t
            ∧ (t.out.txDone == some .clockTimeout) = true)
      ∧ ∃ t, exec (.inWord InWord.zero) { State.reset with cpValid := true, wtCnt := 999999 } = .next t
          ∧ (t.out.txDone == some .windowTimeout) = true :=
  ⟨exists_of_holds (by decide), exists_of_holds (by decide), exists_of_holds (by decide), exists_of_holds (by decide),
    exists_of_holds (by decide)⟩

theorem witness_IgnoredInputs :
    sameInputs State.reset { clockHigh with rst := true } { InWord.zero with rst := true, storeFail := true }
      ∧ sameInputs State.reset clockHigh { clockHigh with pdataI := true, cmdCode := 0xff, statusInit := 3, reserved := true }
      ∧ sameInputs flying { InWord.zero with pdataI := true } InWord.zero := by
  simp [sameInputs, clockHigh, InWord.zero, State.reset, State.afterReset, flying]

end Sys2Proof.Tests
end

section
/-! SUPPORT. How a step and a cycle take their course, said once: the arms of `exec` used here, what a step fetches, where a
cycle is refused, what the stages other than stage 3 leave of the receiver, and the cycle's two ways to answer. -/

namespace Sys2Proof.Machine

/-! ## Arms of the dispatch -/

theorem exec_ageInc (s : State) : exec .ageInc s = execAgeInc s := rfl
theorem exec_framePublish (s : State) : exec .framePublish s = execFramePublish s := rfl
theorem exec_txDrive (s : State) : exec .txDrive s = execTxDrive s := rfl
theorem exec_flagVRef (s : State) : exec .flagVRef s = execFlagVRef s := rfl
theorem exec_rawFrame (p : Bits) (s : State) : exec (.rawFrame p) s = execRawFrame p s := rfl
theorem exec_inWord (f : InWord) (s : State) : exec (.inWord f) s = execInWord f s := rfl

/-! ## The step -/

/-- Where a stimulus is placed its head is fetched and taken off. -/
theorem fetch_of_placed {s : State} {w : BitVec 24} {rest : List (BitVec 24)} (placed : s.stim = w :: rest) :
    fetch s = (decodeIn w, { s with stim := rest }) := by
  simp [fetch, placed]

/-- Where none is placed a free word is drawn. -/
theorem fetch_of_free {s : State} (free : s.stim = []) :
    fetch s = (decodeIn (Config.freeIn s.drawn), { s with drawn := s.drawn + 1 }) := by
  simp [fetch, free]

/-- Every step is a cycle of some input word; the fetch touches only the stimulus and the counter of draws. -/
theorem step_eq_execInWord (s : State) :
    ∃ f stim drawn, step s = execInWord f { s with stim := stim, drawn := drawn } := by
  cases placed : s.stim with
  | nil =>
    refine ⟨inFields (Config.freeIn s.drawn), s.stim, s.drawn + 1, ?_⟩
    rw [step, fetch_of_free placed]
    rfl
  | cons w rest =>
    refine ⟨inFields w, rest, s.drawn, ?_⟩
    rw [step, fetch_of_placed placed]
    rfl

/-! ## Where a cycle is refused -/

theorem insideSpec_beginCycle (f : InWord) (s : State) : insideSpec (beginCycle f s) = insideSpec s := rfl

theorem execInWord_of_illFormed {s : State} (illFormed : s.variant.wf = false) (f : InWord) :
    execInWord f s = .refused .illFormedVariant := by
  simp [execInWord, illFormed]

theorem execInWord_of_outside {s : State} {f : InWord} (wf : s.variant.wf = true) (run : f.rst = false)
    (outside : insideSpec s = false) : execInWord f s = .refused .outsideSpec := by
  have stages : runStages (beginCycle f s) = .refused .outsideSpec := by
    simp [runStages, insideSpec_beginCycle, run, outside]
  simp [execInWord, wf, stages]

/-! ## What the stages leave of the receiver -/

/-- `t` has the receiver's registers, the Variant, the stimulus and the input levels of `s`. -/
structure ReceiverFrame (s t : State) : Prop where
  variant : t.variant = s.variant
  stim : t.stim = s.stim
  drawn : t.drawn = s.drawn
  inp : t.inp = s.inp
  w : t.w = s.w
  inside : t.inside = s.inside
  age : t.age = s.age
  txw : t.txw = s.txw

theorem ReceiverFrame.refl (s : State) : ReceiverFrame s s := ⟨rfl, rfl, rfl, rfl, rfl, rfl, rfl, rfl⟩

theorem ReceiverFrame.trans {s t u : State} (first : ReceiverFrame s t) (second : ReceiverFrame t u) :
    ReceiverFrame s u where
  variant := second.variant.trans first.variant
  stim := second.stim.trans first.stim
  drawn := second.drawn.trans first.drawn
  inp := second.inp.trans first.inp
  w := second.w.trans first.w
  inside := second.inside.trans first.inside
  age := second.age.trans first.age
  txw := second.txw.trans first.txw

/-- An update that writes only other fields: the edge register, the snapshot, the status, `ERR`, the command register, the
transmitter, the wires and the pulses. -/
theorem ReceiverFrame.of_eq {s t : State}
    (eq : t = { s with
      pclkQ := t.pclkQ, fsValid := t.fsValid, fs := t.fs, status := t.status, err := t.err, cpValid := t.cpValid,
      cpCode := t.cpCode, txState := t.txState, txIdx := t.txIdx, txb := t.txb, ctCnt := t.ctCnt, wtCnt := t.wtCnt,
      pdataO := t.pdataO, pdataOe := t.pdataOe, net := t.net, out := t.out }) : ReceiverFrame s t := by
  rw [eq]
  exact ⟨rfl, rfl, rfl, rfl, rfl, rfl, rfl, rfl⟩

theorem stage1_receiver {s t : State} (run : s.inp.rst = false) (h : stage1 s = .next t) : ReceiverFrame s t := by
  rw [stage1_eq run] at h
  cases h
  split <;> exact .of_eq rfl

theorem stage2_receiver {s t : State} (h : stage2 s = .next t) : ReceiverFrame s t := by
  have frame : DecoderFrame s t := stage2_frame h
  rw [frame]
  exact .of_eq rfl

theorem stage4_receiver {s t : State} (run : s.inp.rst = false) (h : stage4 s = .next t) : ReceiverFrame s t := by
  rw [stage4_eq run] at h
  cases h
  split
  · split <;> exact .of_eq rfl
  · exact .refl s

theorem stage5_receiver {s t : State} (run : s.inp.rst = false) (h : stage5 s = .next t) : ReceiverFrame s t := by
  cases state : s.txState with
  | idle =>
    rw [stage5_idle run state] at h
    cases h
    split
    · split
      · exact .of_eq rfl
      · split <;> exact .of_eq rfl
    · exact .refl s
  | waitLow =>
    rw [stage5_waitLow run state] at h
    split at h
    · cases h
      split <;> exact .of_eq rfl
    · split at h
      · cases h
        exact .of_eq rfl
      · cases h
  | waitHigh =>
    rw [stage5_waitHigh run state] at h
    cases h
    split <;> split <;> exact .of_eq rfl

theorem stage6_receiver {s t : State} (run : s.inp.rst = false) (h : stage6 s = .next t) : ReceiverFrame s t := by
  rw [stage6_eq run] at h
  cases h
  split
  · exact .of_eq rfl
  · exact .refl s

theorem SamplerFrame.inp {s t : State} (frame : SamplerFrame s t) : t.inp = s.inp := by rw [frame]

theorem SamplerFrame.variant {s t : State} (frame : SamplerFrame s t) : t.variant = s.variant := by rw [frame]

/-- In a cycle without reset only stage 3 changes the receiver: it starts from the receiver of the cycle's start, and the
cycle ends with the receiver it leaves. -/
theorem stages_receiver {s t : State} (run : s.inp.rst = false)
    (h : runAll [stage1, stage2, stage3, stage4, stage5, stage6] s = .next t) :
    ∃ before after, ReceiverFrame s before ∧ stage3 before = .next after ∧ ReceiverFrame after t := by
  simp only [runAll_cons, runAll_nil, andThen_eq_next] at h
  obtain ⟨u1, h1, u2, h2, u3, h3, u4, h4, u5, h5, u6, h6, ⟨⟩⟩ := h
  have before : ReceiverFrame s u2 := (stage1_receiver run h1).trans (stage2_receiver h2)
  have run3 : u3.inp.rst = false := by rw [(stage3_frame h3).inp, before.inp, run]
  have frame4 := stage4_receiver run3 h4
  have run4 : u4.inp.rst = false := by rw [frame4.inp, run3]
  have frame5 := stage5_receiver run4 h5
  have run5 : u5.inp.rst = false := by rw [frame5.inp, run4]
  exact ⟨u2, u3, before, h3, frame4.trans (frame5.trans (stage6_receiver run5 h6))⟩

/-! ## The cycle's two ways to answer -/

/-- RESET, where it is selected, writes its registers and loads the status. -/
theorem execReset_of_rst {s : State} (rst : s.inp.rst = true) :
    execReset s = .next (setStatus (loadMap s.variant s.inp.statusInit) (resetRegisters s)) := by
  simp [execReset, execStatusLoad, whenK, firesK, kPattern, kBit, rst]

/-- A cycle that answers is RESET's, or a sampler stage between two parts that leave the receiver as it is. -/
theorem execInWord_cases {f : InWord} {s t : State} (h : execInWord f s = .next t) :
    (f.rst = true ∧ t = endCycle (setStatus (loadMap s.variant f.statusInit) (resetRegisters (beginCycle f s))))
    ∨ (f.rst = false ∧ insideSpec s = true ∧ ∃ before after,
        ReceiverFrame (beginCycle f s) before ∧ stage3 before = .next after ∧ ReceiverFrame (endCycle after) t) := by
  obtain ⟨-, u, stages, rfl⟩ := execInWord_eq_next.mp h
  rcases runStages_eq_next.mp stages with ⟨rst, reset⟩ | ⟨run, inRange, rest⟩
  · rw [execReset_of_rst rst] at reset
    cases reset
    exact .inl ⟨rst, rfl⟩
  · obtain ⟨before, after, start, sampled, finish⟩ := stages_receiver run rest
    exact .inr ⟨run, inRange, before, after, start, sampled,
      ⟨finish.variant, finish.stim, finish.drawn, rfl, finish.w, finish.inside, finish.age, finish.txw⟩⟩

/-- No cycle writes the Variant (20 rule R73). -/
theorem execInWord_variant {f : InWord} {s t : State} (h : execInWord f s = .next t) : t.variant = s.variant := by
  rcases execInWord_cases h with ⟨-, rfl⟩ | ⟨-, -, before, after, start, sampled, finish⟩
  · rfl
  · calc
      t.variant = after.variant := finish.variant
      _ = before.variant := (stage3_frame sampled).variant
      _ = s.variant := start.variant

end Sys2Proof.Machine
end

section
/-! SUPPORT. The range of the register `age` through the parts of SAMPLE and through a cycle (10 rules R26, R28, R44), and the
register's width (00 rule R9). -/

namespace Sys2Proof.Machine

/-! ## The range of `age` -/

/-- `age` lies in -1..`top`. -/
def AgeWithin (top : Int) (s : State) : Prop := -1 ≤ s.age ∧ s.age ≤ top

theorem AgeWithin.of_eq {top : Int} {s t : State} (within : AgeWithin top s) (same : t.age = s.age) : AgeWithin top t := by
  rwa [AgeWithin, same]

theorem AgeWithin.mono {top top' : Int} {s : State} (within : AgeWithin top s) (le : top ≤ top') : AgeWithin top' s :=
  ⟨within.1, within.2.trans le⟩

/-- What an operation's update keeps, the operation keeps, selected or not. -/
theorem whenK_keeps {P : State → Prop} {i : Instr} {s t : State} {r : Result} (holds : P s)
    (update : r = .next t → P t) (h : whenK i s r = .next t) : P t := by
  rcases whenK_eq_next.mp h with ⟨-, answered⟩ | ⟨-, rfl⟩
  · exact update answered
  · exact holds

/-- AGE_INC raises the top of the range by one. -/
theorem execAgeInc_within {top : Int} {s t : State} (within : AgeWithin top s) (h : execAgeInc s = .next t) :
    AgeWithin (top + 1) t := by
  refine whenK_keeps (within.mono (by omega)) (fun answered => ?_) h
  cases answered
  obtain ⟨low, high⟩ := within
  exact ⟨by rw [incAge_age]; omega, by rw [incAge_age]; omega⟩

theorem execFramePublish_age {s t : State} (h : execFramePublish s = .next t) : t.age = s.age := by
  refine whenK_keeps (P := fun u => u.age = s.age) rfl (fun answered => ?_) h
  split at answered
  · cases answered
  · split at answered
    · cases answered
      rfl
    · cases answered

/-- After AGE_INC a sample keeps `age` or sets it to 0 (BOUNDARY_TOGGLE) or to -1 (SYNC_RECOVER). -/
theorem sampleParts_within {top : Int} (positive : 0 ≤ top) {s t : State} (within : AgeWithin top s)
    (h : runAll [execFlagMatch, execFramePublish, execFrameDrop, execBoundaryToggle, execSyncRecover, execQuietDetect] s
      = .next t) : AgeWithin top t := by
  refine runAll_keeps (fun f member u v start part => ?_) s t within h
  simp only [List.mem_cons, List.not_mem_nil, or_false] at member
  rcases member with rfl | rfl | rfl | rfl | rfl | rfl
  · exact whenK_keeps start (fun answered => by cases answered; exact start) part
  · exact start.of_eq (execFramePublish_age part)
  · exact whenK_keeps start (fun answered => by cases answered; exact start) part
  · refine whenK_keeps start (fun answered => ?_) part
    cases answered
    exact ⟨by simp, by simpa using positive⟩
  · refine whenK_keeps start (fun answered => ?_) part
    cases answered
    exact ⟨by simp, by simp; omega⟩
  · exact whenK_keeps start (fun answered => by cases answered; exact start) part

theorem execSample_within {top : Int} (positive : 0 ≤ top) {s t : State} (within : AgeWithin top s)
    (h : execSample s = .next t) : AgeWithin (top + 1) t := by
  refine whenK_keeps (within.mono (by omega)) (fun answered => ?_) h
  rw [runAll_cons, andThen_eq_next] at answered
  obtain ⟨u, appended, answered⟩ := answered
  rw [runAll_cons, andThen_eq_next] at answered
  obtain ⟨v, counted, rest⟩ := answered
  have start : AgeWithin top u :=
    whenK_keeps within (fun answered => by cases answered; exact within) appended
  exact sampleParts_within (by omega) (execAgeInc_within start counted) rest

theorem stage3_within {top : Int} (positive : 0 ≤ top) {s t : State} (within : AgeWithin top s)
    (h : stage3 s = .next t) : AgeWithin (top + 1) t := by
  have wider : AgeWithin (top + 1) s := within.mono (by omega)
  unfold stage3 at h
  split at h
  · split at h
    · exact execSample_within positive within h
    · exact whenK_keeps wider (fun answered => by cases answered; exact wider) h
  · cases h
    exact wider

/-- A cycle raises the top of the range of `age` by one at most. -/
theorem execInWord_within {top : Int} (positive : 0 ≤ top) {f : InWord} {s t : State} (within : AgeWithin top s)
    (h : execInWord f s = .next t) : AgeWithin (top + 1) t := by
  rcases execInWord_cases h with ⟨-, rfl⟩ | ⟨-, -, before, after, start, sampled, finish⟩
  · exact ⟨by simp, by simp; omega⟩
  · exact (stage3_within positive (within.of_eq start.age) sampled).of_eq finish.age

/-! ## The width of the register -/

/-- `AGE_W - 1` is the least `k` with `C + 2 ≤ 2 ^ k`. -/
theorem ageW_le_iff (v : Variant) (k : Nat) : Config.ageW v ≤ k + 1 ↔ v.cap + 2 ≤ 2 ^ k := by
  rw [Config.ageW, Nat.add_le_add_iff_right, ceilLog2_le_iff]

/-- The register's positive half has room for `C + 1`. -/
theorem cap_lt_two_pow_ageW (v : Variant) : v.cap + 2 ≤ 2 ^ (Config.ageW v - 1) :=
  (ageW_le_iff v _).mp (by omega)

/-- Every value the sampler computes is read back from the register's bits. -/
theorem ageBits_toInt {v : Variant} {a : Int} (low : -1 ≤ a) (high : a ≤ v.cap + 1) : (ageBits v a).toInt = a := by
  have room : (v.cap : Int) + 2 ≤ 2 ^ (Config.ageW v - 1) := by exact_mod_cast cap_lt_two_pow_ageW v
  have wide : 0 < Config.ageW v := Nat.succ_pos _
  exact BitVec.toInt_ofInt_eq_self wide (by omega) (by omega)

/-- AGE_INC where a sample is taken. -/
theorem execAgeInc_of_sample {s : State} (run : s.inp.rst = false) (fall : s.net.fall = true)
    (idle : s.txState = .idle) : execAgeInc s = .next (incAge s) :=
  whenK_of_fires (by simp [firesK, kPattern, kBit, run, fall, idle]) _

/-- Settles O60. AGE_INC is the one addition of a cycle, so a step leaves `age` in -1..`C + 1`, for which `AGE_W` bits have
room. -/
theorem ageFitsItsRegister : Obligations.AgeFitsItsRegister := by
  refine ⟨fun v => ⟨Nat.succ_pos _, fun k => (ageW_le_iff v k).symm⟩, fun v a => ageBits_toInt, ?_, ?_⟩
  · intro s run fall idle
    exact ⟨incAge s, (exec_ageInc s).trans (execAgeInc_of_sample run fall idle), BitVec.ofInt_add s.age 1⟩
  · intro s t good stepped
    obtain ⟨f, stim, drawn, cycle⟩ := step_eq_execInWord s
    rw [cycle] at stepped
    have start : AgeWithin s.variant.cap { s with stim := stim, drawn := drawn } := ⟨good.ageLow, good.ageHigh⟩
    obtain ⟨low, high⟩ := execInWord_within (Int.natCast_nonneg _) start stepped
    rw [execInWord_variant stepped]
    exact ageBits_toInt low high

end Sys2Proof.Machine
end

section
/-! SUPPORT. What a step fetches, and where a cycle, a bit read and a wire format stop (00 rules R10, R14, R18; 93 U3). -/

namespace Sys2Proof.Machine

/-- Settles O4. -/
theorem stepRunsDecodedWord : Obligations.StepRunsDecodedWord := by
  constructor
  · intro s w rest placed
    rw [step, fetch_of_placed placed]
  · intro s free
    rw [step, fetch_of_free free]

/-- Settles O7. -/
theorem cycleRefusals : Obligations.CycleRefusals :=
  fun s f => ⟨fun illFormed => (exec_inWord f s).trans (execInWord_of_illFormed illFormed f),
    fun wf run outside => (exec_inWord f s).trans (execInWord_of_outside wf run outside)⟩

/-- FRAME_PUBLISH is selected with a negative length, because FITS compares signed numbers, and has no bits to read. -/
theorem execFramePublish_of_negative {s : State} (run : s.inp.rst = false) (fall : s.net.fall = true)
    (idle : s.txState = .idle) (hit : s.net.hit = true) (inside : s.inside = true) (negative : s.age + s.variant.n < 0) :
    execFramePublish s = .fault .noSuchBit := by
  have fits : s.age + s.variant.n ≤ s.w.length := by omega
  have fires : firesK .framePublish s = true := by simp [firesK, kPattern, kBit, run, fall, idle, hit, inside, fits]
  rw [execFramePublish, whenK_of_fires fires, if_pos negative]

theorem memBit_eq_none {space : Bits} {addr : Nat} (beyond : space.length ≤ addr) : memBit space addr = none :=
  List.getElem?_eq_none beyond

theorem execTxDrive_of_beyond {s : State} (run : s.inp.rst = false) (low : s.txState = .waitLow)
    (clock : s.inp.pclk = false) (beyond : s.txb.length ≤ s.txIdx) : execTxDrive s = .fault .noSuchBit := by
  have fires : firesK .txDrive s = true := by simp [firesK, kPattern, kBit, run, low, clock]
  rw [execTxDrive, whenK_of_fires fires, memBit_eq_none beyond]

/-- Settles O9. -/
theorem bitReadsOutsideStop : Obligations.BitReadsOutsideStop := by
  intro s run
  rw [exec_framePublish, exec_txDrive]
  exact ⟨execFramePublish_of_negative run, execTxDrive_of_beyond run⟩

/-- A stimulus of at least one bit is refused where every cycle without reset is: its first cycle is one. -/
theorem runWords_bitsWords_refused {s : State} {bits : Bits} {e : Refusal} (nonempty : bits ≠ [])
    (refused : ∀ f : InWord, f.rst = false → execInWord f s = .refused e) :
    runWords (bitsWords bits) s = .refused e := by
  obtain ⟨d, rest, rfl⟩ := List.exists_cons_of_ne_nil nonempty
  have first := refused { InWord.zero with pclk := true, pdataI := d } rfl
  simp [runWords, bitsWords_cons, bitWords, first]

/-- Settles O59: both rows run the stimulus of their bits. -/
theorem wireFormatsStop : Obligations.WireFormatsStop := by
  intro s p bits i row nonempty
  have runs : exec i s = runWords (bitsWords bits) s := by
    rcases row with ⟨rfl, rfl⟩ | ⟨rfl, rfl⟩
    · exact exec_flagVRef s
    · exact exec_rawFrame p s
  rw [runs]
  exact ⟨fun illFormed => runWords_bitsWords_refused nonempty fun f _ => execInWord_of_illFormed illFormed f,
    fun wf outside => runWords_bitsWords_refused nonempty fun _ run => execInWord_of_outside wf run outside⟩

end Sys2Proof.Machine
end

section
/-! SUPPORT. What SAMPLE does, said once (40 rule R111, 41_boundary_detector.md): what a taken sample leaves for the boundary
detector, the five ways in which the detector ends, and the window's tail across an append. -/

namespace Sys2Proof.Machine

/-! ## The window's tail -/

theorem flagAtTail_iff {v : Variant} {w : Bits} : flagAtTail v w = true ↔ v.n ≤ w.length ∧ tailBits w v.n = v.flag := by
  simp [flagAtTail]

/-- The tail of a tail. -/
theorem tailBits_tailBits {w : Bits} {m n : Nat} (le : n ≤ m) (fits : m ≤ w.length) :
    tailBits (tailBits w m) n = tailBits w n := by
  have start : w.length - m + (m - n) = w.length - n := by omega
  rw [tailBits, tailBits_length fits, tailBits, List.drop_drop, start, ← tailBits]

/-- An append moves the sampled bit to the end of every tail that the window still holds. -/
theorem tailBits_appendBit {cap n : Nat} {w : Bits} {d : Bool} (held : n + 1 ≤ (appendBit cap w d).length) :
    tailBits (appendBit cap w d) (n + 1) = tailBits w n ++ [d] := by
  unfold appendBit at held ⊢
  split
  · next full =>
    rw [if_pos full] at held
    simp only [List.length_append, List.length_drop, List.length_singleton] at held
    have start : 1 + (w.length - 1 + 1 - (n + 1)) = w.length - n ∨ w.length = 0 := by omega
    rcases start with start | empty
    · simp only [tailBits, List.length_append, List.length_drop, List.length_singleton]
      rw [List.drop_append_of_le_length (by simp only [List.length_drop]; omega), List.drop_drop, start]
    · have none : n = 0 := by omega
      simp [tailBits, List.length_eq_zero_iff.mp empty, none]
  · next room =>
    rw [if_neg room] at held
    simp only [List.length_append, List.length_singleton] at held
    have start : w.length + 1 - (n + 1) = w.length - n := by omega
    simp only [tailBits, List.length_append, List.length_singleton]
    rw [start, List.drop_append_of_le_length (by omega)]

/-- The read that FRAME_PUBLISH asks for is the window's tail. -/
theorem memRead_tail {w : Bits} {n : Nat} (fits : n ≤ w.length) : memRead w (w.length - n) n = some (tailBits w n) := by
  refine memRead_eq_some.mpr ⟨by omega, ?_⟩
  rw [tailBits, List.take_of_length_le (by simp only [List.length_drop]; omega)]

/-! ## A taken sample -/

/-- A sample is taken: no reset, a falling edge, and no transmission in flight (40 rule R111). -/
structure Sampling (s : State) : Prop where
  run : s.inp.rst = false
  fall : s.net.fall = true
  idle : s.txState = .idle

theorem firesK_sample_iff {s : State} : firesK .sample s = true ↔ Sampling s := by
  have selection : firesK .sample s = true ↔ s.inp.rst = false ∧ s.net.fall = true ∧ s.txState = .idle := by
    simp [firesK, kPattern, kBit]
  exact selection.trans ⟨fun ⟨run, fall, idle⟩ => ⟨run, fall, idle⟩, fun ⟨run, fall, idle⟩ => ⟨run, fall, idle⟩⟩

/-- WIN_APPEND, AGE_INC and FLAG_MATCH: what every sample does before the boundary detector decides. -/
def sampled (s : State) : State :=
  setHit (flagAtTail s.variant (appendSample s).w) (incAge (appendSample s))

/-- The five ways in which FRAME_PUBLISH, FRAME_DROP, BOUNDARY_TOGGLE and SYNC_RECOVER leave a sampled state (41 rules R132 to
R135): a frame closes and is published or dropped, a frame opens, the age runs over, or the sample is only counted. -/
inductive BoundaryEnd (v : State) : State → Prop
  | published (hit : v.net.hit = true) (inside : v.inside = true) (counted : 0 ≤ v.age + v.variant.n)
      (fits : v.age + v.variant.n ≤ v.w.length) :
      BoundaryEnd v (toggleBoundary (publishFrame (tailBits v.w (v.age + v.variant.n).toNat) v))
  | dropped (hit : v.net.hit = true) (inside : v.inside = true) (long : v.w.length < v.age + v.variant.n) :
      BoundaryEnd v (toggleBoundary (raise .oversizeFrame v))
  | opened (hit : v.net.hit = true) (outside : v.inside = false) : BoundaryEnd v (toggleBoundary v)
  | lost (miss : v.net.hit = false) (old : v.variant.cap < v.age) : BoundaryEnd v (raise .lostSync v)
  | counted (miss : v.net.hit = false) (recent : v.age ≤ v.variant.cap) : BoundaryEnd v v

theorem BoundaryEnd.variant {v u : State} (ends : BoundaryEnd v u) : u.variant = v.variant := by cases ends <;> rfl

theorem BoundaryEnd.w {v u : State} (ends : BoundaryEnd v u) : u.w = v.w := by cases ends <;> rfl

theorem BoundaryEnd.age {v u : State} (ends : BoundaryEnd v u) (low : -1 ≤ v.age) :
    -1 ≤ u.age ∧ u.age ≤ v.variant.cap := by
  cases ends with
  | published | dropped | opened | lost => exact ⟨by simp, by simp⟩
  | counted _ recent => exact ⟨low, recent⟩

theorem BoundaryEnd.sampling {v u : State} (ends : BoundaryEnd v u) (sampling : Sampling v) : Sampling u := by
  obtain ⟨run, fall, idle⟩ := sampling
  cases ends <;> exact ⟨run, fall, idle⟩

/-- FRAME_PUBLISH where a frame closes that the window holds. -/
theorem execFramePublish_of_closing {v : State} (sampling : Sampling v) (hit : v.net.hit = true)
    (inside : v.inside = true) (fits : v.age + v.variant.n ≤ v.w.length) :
    execFramePublish v = if v.age + v.variant.n < 0 then .fault .noSuchBit
      else .next (publishFrame (tailBits v.w (v.age + v.variant.n).toNat) v) := by
  obtain ⟨run, fall, idle⟩ := sampling
  have fires : firesK .framePublish v = true := by simp [firesK, kPattern, kBit, run, fall, idle, hit, inside, fits]
  rw [execFramePublish, whenK_of_fires fires, memRead_tail (by omega)]

/-- The wire of FLAG_MATCH, then `inside` and FITS, or then OVF, choose the end (30 rule R99). -/
theorem boundaryParts_end {v t : State} (sampling : Sampling v)
    (h : runAll [execFramePublish, execFrameDrop, execBoundaryToggle, execSyncRecover] v = .next t) :
    BoundaryEnd v t := by
  have ⟨run, fall, idle⟩ := sampling
  cases hit : v.net.hit with
  | true =>
    cases inside : v.inside with
    | true =>
      by_cases fits : v.age + v.variant.n ≤ v.w.length
      · rw [runAll_cons, execFramePublish_of_closing sampling hit inside fits] at h
        split at h
        · cases h
        · next counted =>
          simp [execFrameDrop, execBoundaryToggle, execSyncRecover, whenK, firesK, kPattern, kBit, run, fall, idle, hit,
            inside, fits, -raise_oversizeFrame] at h
          exact h ▸ .published hit inside (by omega) fits
      · simp [execFramePublish, execFrameDrop, execBoundaryToggle, execSyncRecover, whenK, firesK, kPattern, kBit, run,
          fall, idle, hit, inside, fits] at h
        exact h ▸ .dropped hit inside (by omega)
    | false =>
      simp [execFramePublish, execFrameDrop, execBoundaryToggle, execSyncRecover, whenK, firesK, kPattern, kBit, run,
        fall, idle, hit, inside] at h
      exact h ▸ .opened hit inside
  | false =>
    by_cases old : (v.variant.cap : Int) < v.age
    · simp [execFramePublish, execFrameDrop, execBoundaryToggle, execSyncRecover, whenK, firesK, kPattern, kBit, run,
        fall, idle, hit, old, -raise_lostSync] at h
      exact h ▸ .lost hit old
    · simp [execFramePublish, execFrameDrop, execBoundaryToggle, execSyncRecover, whenK, firesK, kPattern, kBit, run,
        fall, idle, hit, old] at h
      exact h ▸ .counted hit (by omega)

theorem execQuietDetect_of_sampling {u : State} (sampling : Sampling u) :
    execQuietDetect u = .next (setTxw (!u.inside && quietAtTail u.variant u.w) u) := by
  obtain ⟨run, fall, idle⟩ := sampling
  exact whenK_of_fires (by simp [firesK, kPattern, kBit, run, fall, idle]) _

/-- The parts of SAMPLE before the boundary detector's all fire. -/
theorem sampleParts_first {s : State} (sampling : Sampling s) :
    runAll [execWinAppend, execAgeInc, execFlagMatch] s = .next (sampled s) := by
  obtain ⟨run, fall, idle⟩ := sampling
  simp [execWinAppend, execAgeInc, execFlagMatch, whenK, firesK, kPattern, kBit, run, fall, idle, sampled]

/-- What a taken sample answers: an end of the boundary detector, with `txw` set by QUIET_DETECT. -/
theorem execSample_end {s t : State} (sampling : Sampling s) (h : execSample s = .next t) :
    ∃ u, BoundaryEnd (sampled s) u ∧ t = setTxw (!u.inside && quietAtTail u.variant u.w) u := by
  rw [execSample, whenK_of_fires (firesK_sample_iff.mpr sampling)] at h
  have parts : runAll ([execWinAppend, execAgeInc, execFlagMatch]
      ++ ([execFramePublish, execFrameDrop, execBoundaryToggle, execSyncRecover] ++ [execQuietDetect])) s = .next t := h
  rw [runAll_append, sampleParts_first sampling, andThen_next, runAll_append, andThen_eq_next] at parts
  obtain ⟨u, detected, quiet⟩ := parts
  have counted : Sampling (sampled s) := ⟨sampling.run, sampling.fall, sampling.idle⟩
  have ends := boundaryParts_end counted detected
  rw [runAll_cons, execQuietDetect_of_sampling (ends.sampling counted), andThen_next, runAll_nil] at quiet
  cases quiet
  exact ⟨u, ends, rfl⟩

end Sys2Proof.Machine
end

section
/-! SUPPORT. What DECODE keeps beyond the receiver (43_frame_decoder.md), which operations leave the receiver alone (10 rule R29),
the ways in which the transmitter stage ends (46 rule R215) and the chain of a cycle's stages (48 rule R240). -/

namespace Sys2Proof.Machine

/-! ## DECODE -/

/-- `P` survives each update that a part of DECODE is made of. -/
structure DecoderClosed (P : State → Prop) : Prop where
  consume : ∀ s, P s → P { s with fsValid := false }
  setDst : ∀ d s, P s → P (setDst d s)
  setReason : ∀ r s, P s → P (setReason r s)
  setNext : ∀ st s, P s → P (setNext st s)
  pulseZone : ∀ m s, P s → P (pulseZone m s)
  storeNext : ∀ s, P s → P (storeNext s)
  publishNext : ∀ s, P s → P (publishNext s)
  pulseTrace : ∀ r s, P s → P (pulseTrace r s)

/-- As `whenK_keeps`, for the parts of DECODE. -/
theorem whenJ_keeps {P : State → Prop} {i : Instr} {s t : State} {r : Result} (holds : P s)
    (update : r = .next t → P t) (h : whenJ i s r = .next t) : P t := by
  rcases whenJ_eq_next.mp h with ⟨-, answered⟩ | ⟨-, rfl⟩
  · exact update answered
  · exact holds

/-- A part that is one update keeps what the update keeps. -/
theorem whenJ_update_keeps {P : State → Prop} {i : Instr} {s t u : State} (holds : P s) (updated : P u)
    (h : whenJ i s (.next u) = .next t) : P t :=
  whenJ_keeps holds (fun answered => by cases answered; exact updated) h

theorem execZoneForce_keeps {P : State → Prop} (closed : DecoderClosed P) {s t : State} (holds : P s)
    (h : execZoneForce s = .next t) : P t := by
  refine whenJ_keeps holds (runAll_keeps (fun f member u v start part => ?_) _ t (closed.setNext _ s holds)) h
  simp only [List.mem_cons, List.not_mem_nil, or_false] at member
  rcases member with rfl | rfl
  · exact whenJ_update_keeps start (closed.storeNext u start) part
  · exact whenJ_update_keeps start (closed.publishNext u start) part

theorem execZoneDecode_keeps {P : State → Prop} (closed : DecoderClosed P) {s t : State} (holds : P s)
    (h : execZoneDecode s = .next t) : P t :=
  whenJ_keeps holds (execZoneForce_keeps closed (closed.pulseZone _ _ (closed.setReason _ s holds))) h

theorem execStatusDecode_keeps {P : State → Prop} (closed : DecoderClosed P) {s t : State} (holds : P s)
    (h : execStatusDecode s = .next t) : P t := by
  refine whenJ_keeps holds (runAll_keeps (fun f member u v start part => ?_) _ t (closed.setReason _ s holds)) h
  simp only [List.mem_cons, List.not_mem_nil, or_false] at member
  rcases member with rfl | rfl | rfl | rfl
  · exact whenJ_update_keeps start (closed.setNext _ u start) part
  · exact whenJ_update_keeps start (closed.setNext _ u start) part
  · exact whenJ_update_keeps start (closed.storeNext u start) part
  · exact whenJ_update_keeps start (closed.publishNext u start) part

/-- What holds once the snapshot is consumed, and survives the parts' updates, holds after DECODE. -/
theorem execDecode_keeps {P : State → Prop} (closed : DecoderClosed P) {s t : State} (fires : firesK .decode s = true)
    (begun : P (beginDecode s)) (h : execDecode s = .next t) : P t := by
  rw [execDecode, whenK_of_fires fires] at h
  refine runAll_keeps (fun f member u v start part => ?_) _ t begun h
  simp only [List.mem_cons, List.not_mem_nil, or_false] at member
  rcases member with rfl | rfl | rfl | rfl | rfl | rfl
  · exact whenJ_update_keeps start (closed.setDst _ u start) part
  · exact whenJ_update_keeps start (closed.setReason _ _ (closed.consume u start)) part
  · exact whenJ_update_keeps start (closed.setReason _ _ (closed.consume u start)) part
  · exact execZoneDecode_keeps closed start part
  · exact execStatusDecode_keeps closed start part
  · exact whenJ_update_keeps start (closed.pulseTrace _ u start) part

/-- The snapshot is consumed; the edge wire and the transmitter's pulse are those of `s`. -/
structure Consumed (s t : State) : Prop where
  consumed : t.fsValid = false
  fall : t.net.fall = s.net.fall
  txDone : t.out.txDone = s.out.txDone

theorem consumed_closed (s : State) : DecoderClosed (Consumed s) where
  consume _ := fun ⟨_, fall, txDone⟩ => ⟨rfl, fall, txDone⟩
  setDst _ _ := fun ⟨consumed, fall, txDone⟩ => ⟨consumed, fall, txDone⟩
  setReason _ _ := fun ⟨consumed, fall, txDone⟩ => ⟨consumed, fall, txDone⟩
  setNext _ _ := fun ⟨consumed, fall, txDone⟩ => ⟨consumed, fall, txDone⟩
  pulseZone _ _ := fun ⟨consumed, fall, txDone⟩ => ⟨consumed, fall, txDone⟩
  storeNext _ := fun ⟨consumed, fall, txDone⟩ => ⟨consumed, fall, txDone⟩
  publishNext _ := fun ⟨consumed, fall, txDone⟩ => ⟨consumed, fall, txDone⟩
  pulseTrace _ _ := fun ⟨consumed, fall, txDone⟩ => ⟨consumed, fall, txDone⟩

/-- After stage 2 no snapshot is held (43 rule R160). -/
theorem stage2_consumed {s t : State} (run : s.inp.rst = false) (h : stage2 s = .next t) : Consumed s t := by
  unfold stage2 at h
  split at h
  · next held =>
    have fires : firesK .decode s = true := by simp [firesK, kPattern, kBit, run, held]
    exact execDecode_keeps (consumed_closed s) fires ⟨rfl, rfl, rfl⟩ h
  · next none =>
    cases h
    exact ⟨Bool.not_eq_true _ ▸ none, rfl, rfl⟩

/-! ## Operations that leave the receiver alone -/

theorem DecoderFrame.receiver {s t : State} (frame : DecoderFrame s t) : ReceiverFrame s t := by
  rw [frame]
  exact .of_eq rfl

/-- An operation that is one update leaves the receiver where the update does. -/
theorem whenK_update_receiver {i : Instr} {s t u : State} (frame : ReceiverFrame s u)
    (h : whenK i s (.next u) = .next t) : ReceiverFrame s t :=
  whenK_keeps (.refl s) (fun answered => by cases answered; exact frame) h

theorem execTxDrive_receiver {s t : State} (h : execTxDrive s = .next t) : ReceiverFrame s t := by
  refine whenK_keeps (.refl s) (fun answered => ?_) h
  split at answered
  · cases answered
    exact .of_eq rfl
  · cases answered

/-- The decoder, command, transmitter and error operations that K selects (10 rule R29). -/
def receiverReaders : List Instr :=
  [.errClear, .edgeDetect, .decode, .cmdAccept, .cmdReject, .txLoad, .txWaitWindow, .txWinTimeout, .txDrive, .txAdvance,
    .txRelease, .txStallL, .txStallH, .txClkTimeoutL, .txClkTimeoutH, .storeFailLatch]

theorem exec_receiver_of_reader {s t : State} {i : Instr} (row : i ∈ receiverReaders) (h : exec i s = .next t) :
    ReceiverFrame s t := by
  by_cases decode : i = .decode
  · subst decode
    exact (execDecode_frame s t h).receiver
  · by_cases drive : i = .txDrive
    · subst drive
      exact execTxDrive_receiver h
    · simp only [receiverReaders, List.mem_cons, List.not_mem_nil, decode, drive, false_or, or_false] at row
      rcases row with rfl | rfl | rfl | rfl | rfl | rfl | rfl | rfl | rfl | rfl | rfl | rfl | rfl | rfl <;>
        exact whenK_update_receiver (.of_eq rfl) h

/-- No part of DECODE writes the receiver. -/
theorem exec_receiver_of_jRow {s t : State} {i : Instr} (row : i ∈ jRows) (h : exec i s = .next t) :
    ReceiverFrame s t := by
  suffices frame : DecoderFrame s t from frame.receiver
  simp only [jRows, List.mem_cons, List.not_mem_nil, or_false] at row
  rcases row with rfl | rfl | rfl | rfl | rfl | rfl | rfl | rfl | rfl | rfl | rfl | rfl | rfl
  · exact execDestuff_frame s t h
  · exact execDiscardMalformed_frame s t h
  · exact execDiscardLength_frame s t h
  · exact execZoneDecode_frame s t h
  · exact execZoneForce_frame s t h
  · exact execStatusDecode_frame s t h
  · exact execNextStatusRich_frame s t h
  · exact execNextStatusSimple_frame s t h
  · exact execUpdPublishStatus_frame s t h
  · exact execUpdPublishZone_frame s t h
  · exact execUpdStoreStatus_frame s t h
  · exact execUpdStoreZone_frame s t h
  · exact execTrace_frame s t h

/-! ## The transmitter stage -/

/-- The ways in which stage 5 ends: none where nothing is pending, else one of the operations of 46 rule R215's table. -/
inductive Stage5End (s : State) : State → Prop
  | rests (idle : s.txState = .idle) : Stage5End s s
  | loads (idle : s.txState = .idle) (window : s.txw = true) : Stage5End s (loadTx (txBuild s.variant s.cpCode) s)
  | waits (idle : s.txState = .idle) (more : s.wtCnt + 1 < s.variant.windowTimeout) : Stage5End s (waitWindow s)
  | windowTimeout (idle : s.txState = .idle) : Stage5End s (raise .windowTimeout s)
  | drives (low : s.txState = .waitLow) (b : Bool) (bit : memBit s.txb s.txIdx = some b) : Stage5End s (driveLine b s)
  | advances (high : s.txState = .waitHigh) (more : s.txIdx + 1 ≠ s.txb.length) : Stage5End s (advanceTx s)
  | releases (high : s.txState = .waitHigh) : Stage5End s (pulseTxDone .sent (releaseTx s))
  | stalls (busy : s.txState ≠ .idle) (more : s.ctCnt + 1 < s.variant.clkTimeout) : Stage5End s (stallTx s)
  | clockTimeout (busy : s.txState ≠ .idle) : Stage5End s (raise .clockTimeout s)

theorem stage5_end {s t : State} (run : s.inp.rst = false) (h : stage5 s = .next t) : Stage5End s t := by
  cases state : s.txState with
  | idle =>
    rw [stage5_idle run state] at h
    cases h
    split
    · split
      · next window => exact .loads state window
      · split
        · next more => exact .waits state more
        · exact .windowTimeout state
    · exact .rests state
  | waitLow =>
    have busy : s.txState ≠ .idle := by simp [state]
    rw [stage5_waitLow run state] at h
    split at h
    · cases h
      split
      · next more => exact .stalls busy more
      · exact .clockTimeout busy
    · split at h
      · next b bit =>
        cases h
        exact .drives state b bit
      · cases h
  | waitHigh =>
    have busy : s.txState ≠ .idle := by simp [state]
    rw [stage5_waitHigh run state] at h
    cases h
    split
    · split
      · exact .releases state
      · next more => exact .advances state more
    · split
      · next more => exact .stalls busy more
      · exact .clockTimeout busy

/-! ## What the other stages leave of the transmitter -/

/-- `t` has the transmitter's registers of `s`, but that the wait for a window may have started again (45 rule R201). -/
structure TransmitterFrame (s t : State) : Prop where
  variant : t.variant = s.variant
  txState : t.txState = s.txState
  txIdx : t.txIdx = s.txIdx
  txb : t.txb = s.txb
  ctCnt : t.ctCnt = s.ctCnt
  wtCnt : t.wtCnt ≤ s.wtCnt
  pdataO : t.pdataO = s.pdataO
  pdataOe : t.pdataOe = s.pdataOe

theorem TransmitterFrame.refl (s : State) : TransmitterFrame s s := ⟨rfl, rfl, rfl, rfl, rfl, le_rfl, rfl, rfl⟩

theorem stage1_transmitter {s t : State} (run : s.inp.rst = false) (h : stage1 s = .next t) : TransmitterFrame s t := by
  rw [stage1_eq run] at h
  cases h
  split <;> exact ⟨rfl, rfl, rfl, rfl, rfl, le_rfl, rfl, rfl⟩

theorem stage2_transmitter {s t : State} (h : stage2 s = .next t) : TransmitterFrame s t := by
  have frame : DecoderFrame s t := stage2_frame h
  rw [frame]
  exact ⟨rfl, rfl, rfl, rfl, rfl, le_rfl, rfl, rfl⟩

theorem stage3_transmitter {s t : State} (h : stage3 s = .next t) : TransmitterFrame s t := by
  have frame : SamplerFrame s t := stage3_frame h
  rw [frame]
  exact ⟨rfl, rfl, rfl, rfl, rfl, le_rfl, rfl, rfl⟩

theorem stage4_transmitter {s t : State} (run : s.inp.rst = false) (h : stage4 s = .next t) : TransmitterFrame s t := by
  rw [stage4_eq run] at h
  cases h
  split
  · split
    · exact ⟨rfl, rfl, rfl, rfl, rfl, le_rfl, rfl, rfl⟩
    · exact ⟨rfl, rfl, rfl, rfl, rfl, Nat.zero_le _, rfl, rfl⟩
  · exact .refl s

theorem stage6_transmitter {s t : State} (run : s.inp.rst = false) (h : stage6 s = .next t) : TransmitterFrame s t := by
  rw [stage6_eq run] at h
  cases h
  split <;> exact ⟨rfl, rfl, rfl, rfl, rfl, le_rfl, rfl, rfl⟩

/-! ## The chain of the stages -/

/-- A cycle without reset, stage by stage, each with `rst = 0`. -/
theorem stages_chain {s t : State} (run : s.inp.rst = false)
    (h : runAll [stage1, stage2, stage3, stage4, stage5, stage6] s = .next t) :
    ∃ u1 u2 u3 u4 u5, (stage1 s = .next u1 ∧ stage2 u1 = .next u2 ∧ stage3 u2 = .next u3 ∧ stage4 u3 = .next u4
        ∧ stage5 u4 = .next u5 ∧ stage6 u5 = .next t)
      ∧ u1.inp = s.inp ∧ u2.inp = s.inp ∧ u3.inp = s.inp ∧ u4.inp = s.inp ∧ u5.inp = s.inp := by
  simp only [runAll_cons, runAll_nil, andThen_eq_next] at h
  obtain ⟨u1, h1, u2, h2, u3, h3, u4, h4, u5, h5, u6, h6, ⟨⟩⟩ := h
  have inp1 : u1.inp = s.inp := (stage1_receiver run h1).inp
  have inp2 : u2.inp = s.inp := (stage2_receiver h2).inp.trans inp1
  have inp3 : u3.inp = s.inp := (stage3_frame h3).inp.trans inp2
  have inp4 : u4.inp = s.inp := (stage4_receiver (by rw [inp3, run]) h4).inp.trans inp3
  have inp5 : u5.inp = s.inp := (stage5_receiver (by rw [inp4, run]) h5).inp.trans inp4
  exact ⟨u1, u2, u3, u4, u5, ⟨h1, h2, h3, h4, h5, h6⟩, inp1, inp2, inp3, inp4, inp5⟩

/-- A cycle without reset that answers is its six stages between the cycle's two boundaries. -/
theorem execInWord_stages {f : InWord} {s t : State} (run : f.rst = false) (h : execInWord f s = .next t) :
    ∃ u, runAll [stage1, stage2, stage3, stage4, stage5, stage6] (beginCycle f s) = .next u ∧ t = endCycle u := by
  obtain ⟨-, u, stages, rfl⟩ := execInWord_eq_next.mp h
  rcases runStages_eq_next.mp stages with ⟨rst, -⟩ | ⟨-, -, rest⟩
  · rw [beginCycle_inp, run] at rst
    cases rst
  · exact ⟨u, rest, rfl⟩

/-- A cycle that answers has a well-formed Variant (00 rule R10). -/
theorem execInWord_wf {f : InWord} {s t : State} (h : execInWord f s = .next t) : s.variant.wf = true :=
  (execInWord_eq_next.mp h).1

end Sys2Proof.Machine
end

section
/-! SUPPORT. Who writes the receiver (10 rule R29) and what the receiver's registers keep (10 rule R28). -/

namespace Sys2Proof.Machine

/-! ## Cycles without a falling edge -/

theorem stage1_fall {s t : State} (run : s.inp.rst = false) (h : stage1 s = .next t) :
    t.net.fall = (s.pclkQ && !s.inp.pclk) := by
  rw [stage1_eq run] at h
  cases h
  split <;> rfl

/-- The edge wire of stage 1 reaches stage 3 through DECODE. -/
theorem stage2_fall {s u1 u2 : State} (run : s.inp.rst = false) (h1 : stage1 s = .next u1)
    (h2 : stage2 u1 = .next u2) : u2.net.fall = (s.pclkQ && !s.inp.pclk) := by
  have run1 : u1.inp.rst = false := by rw [(stage1_receiver run h1).inp, run]
  rw [(stage2_consumed run1 h2).fall, stage1_fall run h1]

theorem stage3_of_no_fall {s : State} (level : s.net.fall = false) : stage3 s = .next s := by
  simp [stage3, level]

theorem execInWord_receiver_of_no_fall {f : InWord} {s t : State} (run : f.rst = false)
    (h : execInWord f s = .next t) (level : ¬(s.pclkQ = true ∧ f.pclk = false)) :
    t.w = s.w ∧ t.inside = s.inside ∧ t.age = s.age ∧ t.txw = s.txw := by
  obtain ⟨u, stages, rfl⟩ := execInWord_stages run h
  obtain ⟨u1, u2, u3, u4, u5, ⟨h1, h2, h3, h4, h5, h6⟩, -, -, inp3, inp4, inp5⟩ := stages_chain run stages
  have fall : u2.net.fall = false := by
    rw [stage2_fall run h1 h2, beginCycle_pclkQ, beginCycle_inp]
    simpa using level
  rw [stage3_of_no_fall fall] at h3
  cases h3
  have frame : ReceiverFrame (beginCycle f s) u :=
    (stage1_receiver run h1).trans <| (stage2_receiver h2).trans <|
      (stage4_receiver (by rw [inp3]; exact run) h4).trans <| (stage5_receiver (by rw [inp4]; exact run) h5).trans <|
        stage6_receiver (by rw [inp5]; exact run) h6
  exact ⟨frame.w, frame.inside, frame.age, frame.txw⟩

/-- Settles O55. Only stage 3 writes the receiver, and without a falling edge it does nothing; every other operation is an
update of other registers. -/
theorem receiverWriters : Obligations.ReceiverWriters := by
  refine ⟨fun s t f run stepped level => execInWord_receiver_of_no_fall run stepped level, ?_⟩
  intro s t i row answered
  have frame : ReceiverFrame s t :=
    (List.mem_append.mp row).elim (fun reader => exec_receiver_of_reader reader answered)
      fun jRow => exec_receiver_of_jRow jRow answered
  exact ⟨frame.w, frame.inside, frame.age, frame.txw⟩

/-! ## The sampler's invariants -/

theorem cap_pos_of_wf {v : Variant} (wf : v.wf = true) : 0 < v.cap := by
  simp only [Variant.wf, Bool.and_eq_true, decide_eq_true_eq] at wf
  omega

theorem SamplerInv.of_receiver {s t : State} (inv : SamplerInv s) (frame : ReceiverFrame s t) : SamplerInv t where
  window := by rw [frame.w, frame.variant]; exact inv.window
  ageLow := by rw [frame.age]; exact inv.ageLow
  ageHigh := by rw [frame.age, frame.variant]; exact inv.ageHigh
  outside := by rw [frame.txw, frame.inside]; exact inv.outside
  quiet := by rw [frame.txw, frame.variant, frame.w]; exact inv.quiet

/-- An empty window at age 0 without a quiet window, as after RESET. -/
theorem samplerInv_of_cleared {s : State} (window : s.w = []) (age : s.age = 0) (txw : s.txw = false) : SamplerInv s where
  window := by simp [window]
  ageLow := by simp [age]
  ageHigh := by simp [age]
  outside := by simp [txw]
  quiet := by simp [txw]

theorem suspendSampler_sampler {s : State} (inv : SamplerInv s) : SamplerInv (suspendSampler s) where
  window := Nat.zero_le _
  ageLow := inv.ageLow
  ageHigh := inv.ageHigh
  outside := nofun
  quiet := nofun

/-- The window's bound is WIN_APPEND's, the age's bound the boundary detector's, and `txw` is what QUIET_DETECT has just
seen. -/
theorem execSample_sampler {s t : State} (sampling : Sampling s) (wf : s.variant.wf = true) (inv : SamplerInv s)
    (h : execSample s = .next t) : SamplerInv t := by
  obtain ⟨u, ends, rfl⟩ := execSample_end sampling h
  have variant : u.variant = s.variant := ends.variant
  have counted : -1 ≤ (sampled s).age := by
    have low := inv.ageLow
    change -1 ≤ s.age + 1
    omega
  obtain ⟨ageLow, ageHigh⟩ := ends.age counted
  have window : u.w.length ≤ s.variant.cap := by
    rw [ends.w]
    exact appendBit_length_le _ (cap_pos_of_wf wf) inv.window
  exact
    { window := by rw [setTxw_w, setTxw_variant, variant]; exact window
      ageLow := ageLow
      ageHigh := by rw [setTxw_age, setTxw_variant, variant]; exact ageHigh
      outside := fun window => by
        rw [setTxw_txw, Bool.and_eq_true, Bool.not_eq_true'] at window
        exact window.1
      quiet := fun window => by
        rw [setTxw_txw, Bool.and_eq_true] at window
        exact window.2 }

theorem execSample_keeps_sampler {s t : State} (wf : s.variant.wf = true) (inv : SamplerInv s)
    (h : execSample s = .next t) : SamplerInv t := by
  cases fires : firesK .sample s with
  | true => exact execSample_sampler (firesK_sample_iff.mp fires) wf inv h
  | false =>
    rw [execSample, whenK_of_not_fires fires] at h
    cases h
    exact inv

theorem execSampleSuspend_keeps_sampler {s t : State} (inv : SamplerInv s) (h : execSampleSuspend s = .next t) :
    SamplerInv t :=
  whenK_keeps inv (fun answered => by cases answered; exact suspendSampler_sampler inv) h

theorem stage3_sampler {s t : State} (wf : s.variant.wf = true) (inv : SamplerInv s) (h : stage3 s = .next t) :
    SamplerInv t := by
  unfold stage3 at h
  split at h
  · split at h
    · exact execSample_keeps_sampler wf inv h
    · exact execSampleSuspend_keeps_sampler inv h
  · cases h
    exact inv

theorem execReset_keeps_sampler {s t : State} (inv : SamplerInv s) (h : execReset s = .next t) : SamplerInv t := by
  refine whenK_keeps inv (fun answered => ?_) h
  unfold execStatusLoad at answered
  split at answered <;> cases answered <;> exact samplerInv_of_cleared rfl rfl rfl

/-- RESET, SAMPLE and SAMPLE_SUSPEND are the operations of a stage that write the receiver. -/
theorem exec_keeps_sampler {s t : State} {i : Instr} (wf : s.variant.wf = true)
    (row : i ∈ Instr.reset :: stageGroups.flatten) (inv : SamplerInv s) (h : exec i s = .next t) : SamplerInv t := by
  have rows : ∀ i ∈ Instr.reset :: stageGroups.flatten, i = .reset ∨ i = .sample ∨ i = .sampleSuspend
      ∨ i ∈ receiverReaders := by decide
  rcases rows i row with rfl | rfl | rfl | other
  · exact execReset_keeps_sampler inv h
  · exact execSample_keeps_sampler wf inv h
  · exact execSampleSuspend_keeps_sampler inv h
  · exact inv.of_receiver (exec_receiver_of_reader other h)

theorem execInWord_keeps_sampler {f : InWord} {s t : State} (inv : SamplerInv s) (h : execInWord f s = .next t) :
    SamplerInv t := by
  have wf : s.variant.wf = true := execInWord_wf h
  rcases execInWord_cases h with ⟨-, rfl⟩ | ⟨-, -, before, after, start, sampled, finish⟩
  · exact samplerInv_of_cleared rfl rfl rfl
  · have begun : SamplerInv (beginCycle f s) := ⟨inv.window, inv.ageLow, inv.ageHigh, inv.outside, inv.quiet⟩
    have variant : before.variant = s.variant := start.variant
    have sampler : SamplerInv after := stage3_sampler (variant ▸ wf) (begun.of_receiver start) sampled
    have ended : SamplerInv (endCycle after) :=
      ⟨sampler.window, sampler.ageLow, sampler.ageHigh, sampler.outside, sampler.quiet⟩
    exact ended.of_receiver finish

/-- Settles O46. -/
theorem samplerInvariants : Obligations.SamplerInvariants := by
  refine ⟨fun v st _ => samplerInv_of_cleared rfl rfl rfl, fun s t i wf row => exec_keeps_sampler wf row, ?_⟩
  intro s t inv stepped
  obtain ⟨f, stim, drawn, cycle⟩ := step_eq_execInWord s
  rw [cycle] at stepped
  have fetched : SamplerInv { s with stim := stim, drawn := drawn } :=
    ⟨inv.window, inv.ageLow, inv.ageHigh, inv.outside, inv.quiet⟩
  exact execInWord_keeps_sampler fetched stepped

end Sys2Proof.Machine
end

section
/-! SUPPORT. The sticky error bits stage by stage (10 rule R32, 60 rule R262). -/

namespace Sys2Proof.Machine

/-- In a cycle with the edge wire `fall` and the data level `d` a frame closes that the window no longer holds: the condition
of FRAME_DROP (41 rule R133) on the state before the sample. -/
def oversize (fall d : Bool) (s : State) : Bool :=
  fall && s.txState == .idle && s.inside && flagAtTail s.variant (appendBit s.variant.cap s.w d)
    && decide (((appendBit s.variant.cap s.w d).length : Int) < s.age + 1 + s.variant.n)

theorem oversize_of_frame {s t : State} (receiver : ReceiverFrame s t) (transmitter : TransmitterFrame s t)
    (fall d : Bool) : oversize fall d t = oversize fall d s := by
  simp only [oversize, receiver.variant, receiver.w, receiver.inside, receiver.age, transmitter.txState]

/-- The sticky bit that goes with each result of a transmission (60 rules R253, R254). -/
def timeoutBits (r : Option TxResult) : BitVec 4 :=
  match r with
  | some .clockTimeout => 0b0001
  | some .windowTimeout => 0b0010
  | some .sent => 0
  | none => 0

theorem timeoutBits_getLsbD (r : Option TxResult) :
    (timeoutBits r).getLsbD 0 = (r == some .clockTimeout) ∧ (timeoutBits r).getLsbD 1 = (r == some .windowTimeout)
      ∧ (timeoutBits r).getLsbD 2 = false ∧ (timeoutBits r).getLsbD 3 = false := by
  rcases r with _ | _ | _ | _ <;> decide

/-- The boundary detector sets ERR[3] where it drops a frame, and no other bit. -/
theorem BoundaryEnd.err {v u : State} (ends : BoundaryEnd v u) :
    u.err = v.err ||| if v.inside && v.net.hit && decide ((v.w.length : Int) < v.age + v.variant.n)
      then 0b1000 else 0 := by
  cases ends with
  | published hit inside _ fits => simp [hit, inside, not_lt.mpr fits]
  | dropped hit inside long => simp [hit, inside, long]
  | opened hit outside => simp [outside]
  | lost miss => simp [miss]
  | counted miss => simp [miss]

theorem stage3_err {s t : State} (run : s.inp.rst = false) (h : stage3 s = .next t) :
    t.err = s.err ||| if oversize s.net.fall s.inp.pdataI s then 0b1000 else 0 := by
  unfold stage3 at h
  split at h
  · next fall =>
    split at h
    · next idle =>
      obtain ⟨u, ends, rfl⟩ := execSample_end ⟨run, fall, idle⟩ h
      have dropped : oversize s.net.fall s.inp.pdataI s = ((sampled s).inside && (sampled s).net.hit
          && decide (((sampled s).w.length : Int) < (sampled s).age + (sampled s).variant.n)) := by
        rw [oversize, fall, idle]
        rfl
      rw [setTxw_err, ends.err, ← dropped]
      rfl
    · next busy =>
      have kept : t.err = s.err :=
        whenK_keeps (P := fun u => u.err = s.err) rfl (fun answered => by cases answered; rfl) h
      simp [kept, oversize, busy]
  · next level =>
    cases h
    simp [oversize, level]

theorem DecoderFrame.err {s t : State} (frame : DecoderFrame s t) : t.err = s.err := by rw [frame]

theorem SamplerFrame.out {s t : State} (frame : SamplerFrame s t) : t.out = s.out := by rw [frame]

/-- ERR_CLEAR fires in stage 1, before every operation that sets a bit (60 rule R262). -/
theorem stage1_err {s t : State} (run : s.inp.rst = false) (h : stage1 s = .next t) :
    t.err = (if s.inp.errClr then 0 else s.err) ∧ t.out = s.out := by
  rw [stage1_eq run] at h
  cases h
  split <;> exact ⟨rfl, rfl⟩

theorem stage4_err {s t : State} (run : s.inp.rst = false) (h : stage4 s = .next t) :
    t.err = s.err ∧ t.out.txDone = s.out.txDone := by
  rw [stage4_eq run] at h
  cases h
  split
  · split <;> exact ⟨rfl, rfl⟩
  · exact ⟨rfl, rfl⟩

/-- The transmitter sets the bit of the timeout that it reports. -/
theorem stage5_err {s t : State} (run : s.inp.rst = false) (silent : s.out.txDone = none) (h : stage5 s = .next t) :
    t.err = s.err ||| timeoutBits t.out.txDone := by
  cases stage5_end run h <;> simp [timeoutBits, silent]

theorem stage6_err {s t : State} (run : s.inp.rst = false) (h : stage6 s = .next t) :
    t.err = (s.err ||| if s.inp.storeFail then 0b0100 else 0) ∧ t.out = s.out := by
  rw [stage6_eq run] at h
  cases h
  split
  · exact ⟨rfl, rfl⟩
  · exact ⟨by simp, rfl⟩

/-- `ERR` after a cycle without reset: what ERR_CLEAR leaves, and the bit of every setter that fired. -/
theorem execInWord_err {f : InWord} {s t : State} (run : f.rst = false) (h : execInWord f s = .next t) :
    t.err = (if f.errClr then 0 else s.err) ||| (if oversize (s.pclkQ && !f.pclk) f.pdataI s then 0b1000 else 0)
      ||| timeoutBits t.out.txDone ||| (if f.storeFail then 0b0100 else 0) := by
  obtain ⟨u, stages, rfl⟩ := execInWord_stages run h
  obtain ⟨u1, u2, u3, u4, u5, ⟨h1, h2, h3, h4, h5, h6⟩, inp1, inp2, inp3, inp4, inp5⟩ := stages_chain run stages
  have run1 : u1.inp.rst = false := by rw [inp1]; exact run
  have run2 : u2.inp.rst = false := by rw [inp2]; exact run
  have run3 : u3.inp.rst = false := by rw [inp3]; exact run
  have run4 : u4.inp.rst = false := by rw [inp4]; exact run
  have run5 : u5.inp.rst = false := by rw [inp5]; exact run
  obtain ⟨err1, out1⟩ := stage1_err run h1
  obtain ⟨err4, done4⟩ := stage4_err run3 h4
  obtain ⟨err6, out6⟩ := stage6_err run5 h6
  have silent : u4.out.txDone = none := by
    rw [done4, (stage3_frame h3).out, (stage2_consumed run1 h2).txDone, out1]
    rfl
  have dropped : oversize u2.net.fall u2.inp.pdataI u2 = oversize (s.pclkQ && !f.pclk) f.pdataI s := by
    rw [stage2_fall run h1 h2, inp2, oversize_of_frame (stage2_receiver h2) (stage2_transmitter h2),
      oversize_of_frame (stage1_receiver run h1) (stage1_transmitter run h1)]
    rfl
  calc
    u.err = u5.err ||| if f.storeFail then 0b0100 else 0 := by rw [err6, inp5]; rfl
    _ = u3.err ||| timeoutBits u.out.txDone ||| if f.storeFail then 0b0100 else 0 := by
      rw [stage5_err run4 silent h5, err4, out6]
    _ = _ := by
      rw [stage3_err run2 h3, dropped, (stage2_frame h2 : DecoderFrame u1 u2).err, err1]
      rfl

/-- A cycle with reset leaves `ERR` 0000 (70 rule R280). -/
theorem execInWord_err_of_rst {f : InWord} {s t : State} (rst : f.rst = true) (h : execInWord f s = .next t) :
    t.err = 0 := by
  rcases execInWord_cases h with ⟨-, rfl⟩ | ⟨run, -⟩
  · rfl
  · rw [rst] at run
    cases run

theorem getLsbD_setWhere (c : Bool) (mask : BitVec 4) (n : Nat) :
    (if c then mask else 0).getLsbD n = (c && mask.getLsbD n) := by
  cases c <;> simp

theorem getLsbD_clearedWhere (c : Bool) (e : BitVec 4) (n : Nat) :
    (if c then 0 else e).getLsbD n = (e.getLsbD n && !c) := by
  cases c <;> simp

/-- Settles O56: the bits of `execInWord_err`, one by one. -/
theorem stickyErrors : Obligations.StickyErrors := by
  intro s t f stepped
  refine ⟨fun rst => execInWord_err_of_rst rst stepped, fun run => ?_⟩
  obtain ⟨clock, window, store, frame⟩ := timeoutBits_getLsbD t.out.txDone
  have bits (n : Nat) : t.err.getLsbD n = ((s.err.getLsbD n && !f.errClr
      || oversize (s.pclkQ && !f.pclk) f.pdataI s && (0b1000 : BitVec 4).getLsbD n
      || (timeoutBits t.out.txDone).getLsbD n) || f.storeFail && (0b0100 : BitVec 4).getLsbD n) := by
    rw [execInWord_err run stepped, BitVec.getLsbD_or, BitVec.getLsbD_or, BitVec.getLsbD_or, getLsbD_clearedWhere,
      getLsbD_setWhere, getLsbD_setWhere]
  refine ⟨?_, ?_, ?_, ?_⟩
  · rw [bits, clock]; simp
  · rw [bits, window]; simp
  · rw [bits, store]; simp
  · rw [bits, frame]; simp [oversize, appendBit]

end Sys2Proof.Machine
end

section
/-! SUPPORT. What a good state keeps beyond the sampler's invariants: the frame in the window and in the snapshot (30 rule R83,
41 rule R132, 20 rule R72) and the transmitter's registers (10 rules R34 to R37, 46 rule R226). -/

namespace Sys2Proof.Machine

/-! ## The frame -/

theorem FrameInv.of_receiver {s t : State} (inv : FrameInv s) (frame : ReceiverFrame s t) (fs : t.fs = s.fs)
    (fsValid : t.fsValid = true → s.fsValid = true) : FrameInv t where
  counted := by rw [frame.inside, frame.age]; exact inv.counted
  opened := by rw [frame.inside, frame.age, frame.variant, frame.w]; exact inv.opened
  fits := by rw [fs, frame.variant]; exact inv.fits
  closed := by rw [frame.inside, frame.age]; exact inv.closed ∘ fsValid
  flags := by rw [fs, frame.variant]; exact inv.flags ∘ fsValid

/-- Outside a frame and with no snapshot held, only the snapshot's length is claimed. -/
theorem frameInv_of_outside {s : State} (outside : s.inside = false) (empty : s.fsValid = false)
    (fits : s.fs.length ≤ s.variant.cap) : FrameInv s where
  counted := by simp [outside]
  opened := by simp [outside]
  fits := fits
  closed := by simp [empty]
  flags := by simp [empty]

theorem appendBit_length_le_succ (cap : Nat) (w : Bits) (d : Bool) : (appendBit cap w d).length ≤ w.length + 1 := by
  unfold appendBit
  split <;> simp

/-- A sample moves the opening flag one bit further back. -/
theorem sampled_opened {s : State} (inv : FrameInv s) (inside : s.inside = true)
    (held : s.age + 1 + s.variant.n ≤ (sampled s).w.length) :
    (tailBits (sampled s).w (s.age + 1 + s.variant.n).toNat).take s.variant.n = s.variant.flag := by
  have counted : 0 ≤ s.age := inv.counted inside
  have grown : (sampled s).w.length ≤ s.w.length + 1 := appendBit_length_le_succ _ _ _
  have before : s.age + s.variant.n ≤ s.w.length := by omega
  have more : (s.age + 1 + s.variant.n).toNat = (s.age + s.variant.n).toNat + 1 := by omega
  have tail : tailBits (sampled s).w ((s.age + s.variant.n).toNat + 1)
      = tailBits s.w (s.age + s.variant.n).toNat ++ [s.inp.pdataI] :=
    tailBits_appendBit (by change _ ≤ (sampled s).w.length; omega)
  have reach : s.variant.n ≤ (tailBits s.w (s.age + s.variant.n).toNat).length := by
    rw [tailBits_length (by omega)]
    omega
  rw [more, tail, List.take_append_of_le_length reach, inv.opened inside before]

/-- What FLAG_MATCH has seen where its wire is set. -/
theorem sampled_flag {s : State} (hit : (sampled s).net.hit = true) :
    s.variant.n ≤ (sampled s).w.length ∧ tailBits (sampled s).w s.variant.n = s.variant.flag :=
  flagAtTail_iff.mp hit

/-- A published snapshot is the window from the opening flag on, and ends with the flag just seen. -/
theorem published_flags {s : State} (inv : FrameInv s) (hit : (sampled s).net.hit = true) (inside : s.inside = true)
    (held : s.age + 1 + s.variant.n ≤ (sampled s).w.length) :
    let f := tailBits (sampled s).w (s.age + 1 + s.variant.n).toNat
    s.variant.n < f.length ∧ f.take s.variant.n = s.variant.flag ∧ tailBits f s.variant.n = s.variant.flag := by
  have counted : 0 ≤ s.age := inv.counted inside
  refine ⟨?_, sampled_opened inv inside held, ?_⟩
  · rw [tailBits_length (by omega)]
    omega
  · rw [tailBits_tailBits (by omega) (by omega)]
    exact (sampled_flag hit).2

theorem boundaryEnd_frame {s u : State} (wf : s.variant.wf = true) (sampler : SamplerInv s) (inv : FrameInv s)
    (empty : s.fsValid = false) (ends : BoundaryEnd (sampled s) u) : FrameInv u := by
  have window : (sampled s).w.length ≤ s.variant.cap := appendBit_length_le _ (cap_pos_of_wf wf) sampler.window
  cases ends with
  | published hit inside positive held =>
    have outside : (!(sampled s).inside) = false := by rw [inside]; rfl
    exact
      { counted := fun within => absurd (within.symm.trans outside) (by decide)
        opened := fun within => absurd (within.symm.trans outside) (by decide)
        fits := by
          change (tailBits (sampled s).w _).length ≤ s.variant.cap
          rw [tailBits_length (by omega)]
          omega
        closed := fun _ => ⟨outside, rfl⟩
        flags := fun _ => published_flags inv hit inside held }
  | dropped hit inside long =>
    exact frameInv_of_outside (by rw [toggleBoundary_inside]; simp [inside]) empty inv.fits
  | opened hit outside =>
    obtain ⟨-, flag⟩ := sampled_flag hit
    exact
      { counted := fun _ => le_rfl
        opened := fun _ _ => by
          change (tailBits (sampled s).w (0 + s.variant.n : Int).toNat).take s.variant.n = s.variant.flag
          rw [zero_add, Int.toNat_natCast, flag, List.take_length]
        fits := inv.fits
        closed := fun held => absurd (held.symm.trans empty) (by decide)
        flags := fun held => absurd (held.symm.trans empty) (by decide) }
  | lost miss old => exact frameInv_of_outside rfl empty inv.fits
  | counted miss recent =>
    exact
      { counted := fun inside => by
          have before : 0 ≤ s.age := inv.counted inside
          change 0 ≤ s.age + 1
          omega
        opened := fun inside held => sampled_opened inv inside held
        fits := inv.fits
        closed := fun held => absurd (held.symm.trans empty) (by decide)
        flags := fun held => absurd (held.symm.trans empty) (by decide) }

theorem execSample_frameInv {s t : State} (sampling : Sampling s) (wf : s.variant.wf = true) (sampler : SamplerInv s)
    (inv : FrameInv s) (empty : s.fsValid = false) (h : execSample s = .next t) : FrameInv t := by
  obtain ⟨u, ends, rfl⟩ := execSample_end sampling h
  obtain ⟨counted, opened, fits, closed, flags⟩ := boundaryEnd_frame wf sampler inv empty ends
  exact ⟨counted, opened, fits, closed, flags⟩

/-! ## The transmitter -/

theorem clkTimeout_pos_of_wf {v : Variant} (wf : v.wf = true) : 0 < v.clkTimeout := by
  simp only [Variant.wf, Bool.and_eq_true, decide_eq_true_eq] at wf
  omega

theorem windowTimeout_pos_of_wf {v : Variant} (wf : v.wf = true) : 0 < v.windowTimeout := by
  simp only [Variant.wf, Bool.and_eq_true, decide_eq_true_eq] at wf
  omega

/-- Where the transmitter's registers stay, only the receiver can break its invariants: by entering a frame in flight. -/
theorem TransmitterInv.of_frame {s t : State} (inv : TransmitterInv s) (frame : TransmitterFrame s t)
    (suspended : s.txState ≠ .idle → t.inside = false) : TransmitterInv t where
  sending := by rw [frame.txState, frame.txIdx, frame.txb, frame.variant]; exact inv.sending
  suspended := by rw [frame.txState]; exact suspended
  resting := by rw [frame.txState, frame.txb, frame.txIdx, frame.ctCnt, frame.pdataOe]; exact inv.resting
  waitsLow := by rw [frame.txState, frame.pdataOe, frame.txIdx]; exact inv.waitsLow
  onLine := by rw [frame.txState, frame.pdataOe, frame.txb, frame.txIdx, frame.pdataO]; exact inv.onLine
  released := by rw [frame.pdataOe, frame.pdataO]; exact inv.released
  clock := by rw [frame.ctCnt, frame.variant]; exact inv.clock
  waiting := by rw [frame.variant]; exact frame.wtCnt.trans_lt inv.waiting

/-- TX_LOAD starts at bit 0 of a sequence that is never empty: it ends with the flag and a 0 (45 rule R203). -/
theorem loadTx_transmitter {s : State} (wf : s.variant.wf = true) (inv : TransmitterInv s) (idle : s.txState = .idle)
    (outside : s.inside = false) (code : Byte) : TransmitterInv (loadTx (txBuild s.variant code) s) where
  sending _ := ⟨by simp [txBuild], code, rfl⟩
  suspended _ := outside
  resting := nofun
  waitsLow _ := by
    obtain ⟨-, -, -, released⟩ := inv.resting idle
    simp [released]
  onLine := nofun
  released := inv.released
  clock := clkTimeout_pos_of_wf wf
  waiting := windowTimeout_pos_of_wf wf

theorem driveLine_transmitter {s : State} (wf : s.variant.wf = true) (inv : TransmitterInv s)
    (low : s.txState = .waitLow) {b : Bool} (bit : memBit s.txb s.txIdx = some b) : TransmitterInv (driveLine b s) where
  sending _ := inv.sending (by simp [low])
  suspended _ := inv.suspended (by simp [low])
  resting := nofun
  waitsLow := nofun
  onLine _ := ⟨rfl, bit⟩
  released := nofun
  clock := clkTimeout_pos_of_wf wf
  waiting := inv.waiting

/-- TX_ADVANCE fires before the last bit, so the index stays inside the buffer. -/
theorem advanceTx_transmitter {s : State} (wf : s.variant.wf = true) (inv : TransmitterInv s)
    (high : s.txState = .waitHigh) (more : s.txIdx + 1 ≠ s.txb.length) : TransmitterInv (advanceTx s) := by
  have busy : s.txState ≠ .idle := by simp [high]
  obtain ⟨inBuffer, built⟩ := inv.sending busy
  obtain ⟨driven, -⟩ := inv.onLine high
  exact
    { sending := fun _ => ⟨by rw [advanceTx_txIdx, advanceTx_txb]; omega, built⟩
      suspended := fun _ => inv.suspended busy
      resting := nofun
      waitsLow := fun _ => by simp [driven]
      onLine := nofun
      released := inv.released
      clock := clkTimeout_pos_of_wf wf
      waiting := inv.waiting }

theorem stallTx_transmitter {s : State} (inv : TransmitterInv s) (busy : s.txState ≠ .idle)
    (more : s.ctCnt + 1 < s.variant.clkTimeout) : TransmitterInv (stallTx s) :=
  ⟨inv.sending, inv.suspended, fun idle => absurd idle busy, inv.waitsLow, inv.onLine, inv.released, more, inv.waiting⟩

/-- A transmitter at rest, as the end of every transmission and RESET leave it. -/
theorem transmitterInv_of_resting {s : State} (wf : s.variant.wf = true) (idle : s.txState = .idle)
    (empty : s.txb = []) (first : s.txIdx = 0) (clock : s.ctCnt = 0) (released : s.pdataOe = false)
    (level : s.pdataO = false) (waiting : s.wtCnt < s.variant.windowTimeout) : TransmitterInv s where
  sending busy := absurd idle busy
  suspended busy := absurd idle busy
  resting _ := ⟨empty, first, clock, released⟩
  waitsLow low := by simp [idle] at low
  onLine high := by simp [idle] at high
  released _ := level
  clock := by rw [clock]; exact clkTimeout_pos_of_wf wf
  waiting := waiting

/-- Stage 5 keeps the transmitter's invariants; it starts a transmission only where the receiver is outside a frame. -/
theorem stage5End_transmitter {s t : State} (wf : s.variant.wf = true) (sampler : SamplerInv s) (inv : TransmitterInv s)
    (ends : Stage5End s t) : TransmitterInv t := by
  cases ends with
  | rests => exact inv
  | loads idle window => exact loadTx_transmitter wf inv idle (sampler.outside window) s.cpCode
  | waits idle more =>
    obtain ⟨empty, first, clock, released⟩ := inv.resting idle
    exact transmitterInv_of_resting wf idle empty first clock released (inv.released released) more
  | windowTimeout idle =>
    obtain ⟨empty, first, clock, released⟩ := inv.resting idle
    exact transmitterInv_of_resting wf idle empty first clock released (inv.released released)
      (windowTimeout_pos_of_wf wf)
  | drives low b bit => exact driveLine_transmitter wf inv low bit
  | advances high more => exact advanceTx_transmitter wf inv high more
  | releases high => exact transmitterInv_of_resting wf rfl rfl rfl rfl rfl rfl inv.waiting
  | stalls busy more => exact stallTx_transmitter inv busy more
  | clockTimeout busy => exact transmitterInv_of_resting wf rfl rfl rfl rfl rfl rfl inv.waiting

/-! ## The stages -/

/-- A stage that leaves the receiver and the transmitter alone, and publishes no snapshot, keeps a good state good. -/
theorem Inv.of_frames {s t : State} (inv : Inv s) (receiver : ReceiverFrame s t) (transmitter : TransmitterFrame s t)
    (fs : t.fs = s.fs) (fsValid : t.fsValid = true → s.fsValid = true) : Inv t where
  variantOk := by rw [receiver.variant]; exact inv.variantOk
  sampler := inv.sampler.of_receiver receiver
  frame := inv.frame.of_receiver receiver fs fsValid
  transmitter := inv.transmitter.of_frame transmitter fun busy => by
    rw [receiver.inside]; exact inv.transmitter.suspended busy

theorem stage1_inv {s t : State} (run : s.inp.rst = false) (inv : Inv s) (h : stage1 s = .next t) : Inv t := by
  have snapshot : t.fs = s.fs ∧ t.fsValid = s.fsValid := by
    rw [stage1_eq run] at h
    cases h
    split <;> exact ⟨rfl, rfl⟩
  exact inv.of_frames (stage1_receiver run h) (stage1_transmitter run h) snapshot.1 (snapshot.2 ▸ id)

theorem stage2_inv {s t : State} (run : s.inp.rst = false) (inv : Inv s) (h : stage2 s = .next t) : Inv t := by
  have fs : t.fs = s.fs := by
    have frame : DecoderFrame s t := stage2_frame h
    rw [frame]
  refine inv.of_frames (stage2_receiver h) (stage2_transmitter h) fs fun held => ?_
  exact absurd (held.symm.trans (stage2_consumed run h).consumed) (by decide)

theorem suspendSampler_inv {s : State} (inv : Inv s) (busy : s.txState ≠ .idle) (empty : s.fsValid = false) :
    Inv (suspendSampler s) where
  variantOk := inv.variantOk
  sampler := suspendSampler_sampler inv.sampler
  frame := frameInv_of_outside (inv.transmitter.suspended busy) empty inv.frame.fits
  transmitter := inv.transmitter.of_frame ⟨rfl, rfl, rfl, rfl, rfl, le_rfl, rfl, rfl⟩ inv.transmitter.suspended

theorem stage3_inv {s t : State} (run : s.inp.rst = false) (inv : Inv s) (empty : s.fsValid = false)
    (h : stage3 s = .next t) : Inv t := by
  have variantOk : t.variant.wf = true := by rw [(stage3_frame h).variant]; exact inv.variantOk
  have transmitter : TransmitterFrame s t := stage3_transmitter h
  have sampler : SamplerInv t := stage3_sampler inv.variantOk inv.sampler h
  unfold stage3 at h
  split at h
  · next fall =>
    split at h
    · next idle =>
      have frame := execSample_frameInv ⟨run, fall, idle⟩ inv.variantOk inv.sampler inv.frame empty h
      exact ⟨variantOk, sampler, frame, inv.transmitter.of_frame transmitter fun busy => absurd idle busy⟩
    · next busy =>
      exact whenK_keeps inv (fun answered => by cases answered; exact suspendSampler_inv inv busy empty) h
  · cases h
    exact inv

theorem stage4_inv {s t : State} (run : s.inp.rst = false) (inv : Inv s) (h : stage4 s = .next t) : Inv t := by
  have snapshot : t.fs = s.fs ∧ t.fsValid = s.fsValid := by
    rw [stage4_eq run] at h
    cases h
    split
    · split <;> exact ⟨rfl, rfl⟩
    · exact ⟨rfl, rfl⟩
  exact inv.of_frames (stage4_receiver run h) (stage4_transmitter run h) snapshot.1 (snapshot.2 ▸ id)

theorem stage5_inv {s t : State} (run : s.inp.rst = false) (inv : Inv s) (h : stage5 s = .next t) : Inv t := by
  have ends := stage5_end run h
  have receiver := stage5_receiver run h
  have snapshot : t.fs = s.fs ∧ t.fsValid = s.fsValid := by cases ends <;> exact ⟨rfl, rfl⟩
  exact
    { variantOk := by rw [receiver.variant]; exact inv.variantOk
      sampler := inv.sampler.of_receiver receiver
      frame := inv.frame.of_receiver receiver snapshot.1 (snapshot.2 ▸ id)
      transmitter := stage5End_transmitter inv.variantOk inv.sampler inv.transmitter ends }

theorem stage6_inv {s t : State} (run : s.inp.rst = false) (inv : Inv s) (h : stage6 s = .next t) : Inv t := by
  have snapshot : t.fs = s.fs ∧ t.fsValid = s.fsValid := by
    rw [stage6_eq run] at h
    cases h
    split <;> exact ⟨rfl, rfl⟩
  exact inv.of_frames (stage6_receiver run h) (stage6_transmitter run h) snapshot.1 (snapshot.2 ▸ id)

/-! ## The cycle -/

/-- RESET leaves a good state, whatever the registers held. -/
theorem inv_of_reset {s : State} (wf : s.variant.wf = true) (st : AlarmStatus) :
    Inv (endCycle (setStatus st (resetRegisters s))) where
  variantOk := wf
  sampler := samplerInv_of_cleared rfl rfl rfl
  frame := frameInv_of_outside rfl rfl (Nat.zero_le _)
  transmitter := transmitterInv_of_resting wf rfl rfl rfl rfl rfl rfl (windowTimeout_pos_of_wf wf)

/-- The invariant speaks of no model field: the stimulus, the draws, the input levels, the wires and the pulses. -/
theorem Inv.of_model_fields {s t : State} (inv : Inv s)
    (eq : t = { s with stim := t.stim, drawn := t.drawn, inp := t.inp, net := t.net, out := t.out }) : Inv t := by
  obtain ⟨variantOk, ⟨window, ageLow, ageHigh, outside, quiet⟩, ⟨counted, opened, fits, closed, flags⟩,
    ⟨sending, suspended, resting, waitsLow, onLine, released, clock, waiting⟩⟩ := inv
  rw [eq]
  exact ⟨variantOk, ⟨window, ageLow, ageHigh, outside, quiet⟩, ⟨counted, opened, fits, closed, flags⟩,
    ⟨sending, suspended, resting, waitsLow, onLine, released, clock, waiting⟩⟩

/-- DECODE consumes the snapshot before stage 3 can publish the next one. -/
theorem stages_inv {s t : State} (run : s.inp.rst = false) (inv : Inv s)
    (h : runAll [stage1, stage2, stage3, stage4, stage5, stage6] s = .next t) : Inv t := by
  obtain ⟨u1, u2, u3, u4, u5, ⟨h1, h2, h3, h4, h5, h6⟩, inp1, inp2, inp3, inp4, inp5⟩ := stages_chain run h
  have inv1 : Inv u1 := stage1_inv run inv h1
  have inv2 : Inv u2 := stage2_inv (by rw [inp1, run]) inv1 h2
  have empty : u2.fsValid = false := (stage2_consumed (by rw [inp1, run]) h2).consumed
  have inv3 : Inv u3 := stage3_inv (by rw [inp2, run]) inv2 empty h3
  have inv4 : Inv u4 := stage4_inv (by rw [inp3, run]) inv3 h4
  have inv5 : Inv u5 := stage5_inv (by rw [inp4, run]) inv4 h5
  exact stage6_inv (by rw [inp5, run]) inv5 h6

/-- A cycle keeps a good state good. -/
theorem execInWord_inv {f : InWord} {s t : State} (inv : Inv s) (h : execInWord f s = .next t) : Inv t := by
  obtain ⟨wf, u, stages, rfl⟩ := execInWord_eq_next.mp h
  rcases runStages_eq_next.mp stages with ⟨rst, reset⟩ | ⟨run, -, rest⟩
  · rw [execReset_of_rst rst] at reset
    cases reset
    exact inv_of_reset (s := beginCycle f s) wf _
  · exact (stages_inv run (inv.of_model_fields rfl) rest).of_model_fields rfl

/-- Settles O47. A step is a cycle; RESET leaves a good state and each stage of a cycle keeps one. -/
theorem invKept : Obligations.InvKept := by
  intro s t inv stepped
  obtain ⟨f, stim, drawn, cycle⟩ := step_eq_execInWord s
  rw [cycle] at stepped
  exact execInWord_inv (inv.of_model_fields rfl) stepped

end Sys2Proof.Machine
end

section
/-! SUPPORT. Which stages of a cycle write the three bit memories, and that each keeps their form (20 rule R60): stage 3 the
window and the snapshot, stage 5 the transmit buffer, RESET all three, no other stage any. -/

namespace Sys2Proof.Machine

/-- An operation that is one update keeps the form where the update does. -/
theorem whenK_update_memory_wf {i : Instr} {s t u : State} (form : Memory.wf s = true) (updated : Memory.wf u = true)
    (h : whenK i s (.next u) = .next t) : Memory.wf t = true :=
  whenK_keeps (P := fun v => Memory.wf v = true) form (fun answered => by cases answered; exact updated) h

theorem execFramePublish_memory_wf {s t : State} (form : Memory.wf s = true) (h : execFramePublish s = .next t) :
    Memory.wf t = true := by
  refine whenK_keeps (P := fun u => Memory.wf u = true) form (fun answered => ?_) h
  split at answered
  · cases answered
  · split at answered
    · next f read =>
      cases answered
      exact publishFrame_memory_wf read form
    · cases answered

/-- The first part of SAMPLE appends within the capacity; FRAME_PUBLISH takes its snapshot from the window; the other parts
write no memory. -/
theorem execSample_memory_wf {s t : State} (wf : s.variant.wf = true) (form : Memory.wf s = true)
    (h : execSample s = .next t) : Memory.wf t = true := by
  refine whenK_keeps (P := fun u => Memory.wf u = true) form (fun answered => ?_) h
  rw [runAll_cons, andThen_eq_next] at answered
  obtain ⟨u, append, rest⟩ := answered
  have appended : Memory.wf u = true :=
    whenK_update_memory_wf form (appendSample_memory_wf (cap_pos_of_wf wf) form) append
  refine runAll_keeps (P := fun v => Memory.wf v = true) (fun f member v v' start part => ?_) u t appended rest
  simp only [List.mem_cons, List.not_mem_nil, or_false] at member
  rcases member with rfl | rfl | rfl | rfl | rfl | rfl | rfl
  · exact whenK_update_memory_wf (u := incAge v) start start part
  · exact whenK_update_memory_wf (u := setHit (flagAtTail v.variant v.w) v) start start part
  · exact execFramePublish_memory_wf start part
  · exact whenK_update_memory_wf start (raise_memory_wf _ start) part
  · exact whenK_update_memory_wf (u := toggleBoundary v) start start part
  · exact whenK_update_memory_wf start (raise_memory_wf _ start) part
  · exact whenK_update_memory_wf (u := setTxw (!v.inside && quietAtTail v.variant v.w) v) start start part

theorem stage1_memory_wf {s t : State} (run : s.inp.rst = false) (form : Memory.wf s = true)
    (h : stage1 s = .next t) : Memory.wf t = true := by
  rw [stage1_eq run] at h
  cases h
  split <;> exact form

theorem stage2_memory_wf {s t : State} (form : Memory.wf s = true) (h : stage2 s = .next t) : Memory.wf t = true := by
  have frame : DecoderFrame s t := stage2_frame h
  rw [frame]
  exact form

theorem stage3_memory_wf {s t : State} (wf : s.variant.wf = true) (form : Memory.wf s = true)
    (h : stage3 s = .next t) : Memory.wf t = true := by
  unfold stage3 at h
  split at h
  · split at h
    · exact execSample_memory_wf wf form h
    · exact whenK_update_memory_wf form (suspendSampler_memory_wf form) h
  · cases h
    exact form

theorem stage4_memory_wf {s t : State} (run : s.inp.rst = false) (form : Memory.wf s = true)
    (h : stage4 s = .next t) : Memory.wf t = true := by
  rw [stage4_eq run] at h
  cases h
  split
  · split
    · exact raise_memory_wf _ form
    · exact form
  · exact form

/-- The transmitter loads a sequence of TX_BUILD, keeps its buffer or empties it. -/
theorem stage5End_memory_wf {s t : State} (wf : s.variant.wf = true) (form : Memory.wf s = true)
    (ends : Stage5End s t) : Memory.wf t = true := by
  cases ends with
  | rests => exact form
  | loads => exact loadTx_memory_wf s.cpCode wf form
  | waits => exact form
  | windowTimeout => exact raise_memory_wf _ form
  | drives => exact form
  | advances => exact form
  | releases => exact releaseTx_memory_wf (s := s) form
  | stalls => exact form
  | clockTimeout => exact raise_memory_wf _ form

theorem stage6_memory_wf {s t : State} (run : s.inp.rst = false) (form : Memory.wf s = true)
    (h : stage6 s = .next t) : Memory.wf t = true := by
  rw [stage6_eq run] at h
  cases h
  split
  · exact raise_memory_wf _ form
  · exact form

theorem stages_memory_wf {s t : State} (run : s.inp.rst = false) (wf : s.variant.wf = true)
    (form : Memory.wf s = true) (h : runAll [stage1, stage2, stage3, stage4, stage5, stage6] s = .next t) :
    Memory.wf t = true := by
  obtain ⟨u1, u2, u3, u4, u5, ⟨h1, h2, h3, h4, h5, h6⟩, -, -, inp3, inp4, inp5⟩ := stages_chain run h
  have run3 : u3.inp.rst = false := by rw [inp3, run]
  have run4 : u4.inp.rst = false := by rw [inp4, run]
  have run5 : u5.inp.rst = false := by rw [inp5, run]
  have variant2 : u2.variant = s.variant := ((stage1_receiver run h1).trans (stage2_receiver h2)).variant
  have variant4 : u4.variant = s.variant := by
    rw [(stage4_receiver run3 h4).variant, (stage3_frame h3).variant, variant2]
  have form2 : Memory.wf u2 = true := stage2_memory_wf (stage1_memory_wf run form h1) h2
  have form3 : Memory.wf u3 = true := stage3_memory_wf (variant2 ▸ wf) form2 h3
  have form4 : Memory.wf u4 = true := stage4_memory_wf run3 form3 h4
  have form5 : Memory.wf u5 = true := stage5End_memory_wf (variant4 ▸ wf) form4 (stage5_end run4 h5)
  exact stage6_memory_wf run5 form5 h6

theorem execInWord_memory_wf {f : InWord} {s t : State} (form : Memory.wf s = true) (h : execInWord f s = .next t) :
    Memory.wf t = true := by
  obtain ⟨wf, u, stages, rfl⟩ := execInWord_eq_next.mp h
  suffices ended : Memory.wf u = true from ended
  rcases runStages_eq_next.mp stages with ⟨rst, reset⟩ | ⟨run, -, rest⟩
  · rw [execReset_of_rst rst] at reset
    cases reset
    exact resetRegisters_memory_wf (beginCycle f s)
  · exact stages_memory_wf run wf form rest

/-- Settles O50. A step is a cycle; RESET empties the memories and each stage of a cycle keeps their form. -/
theorem memoryKept : Obligations.MemoryKept := by
  intro s t form stepped
  obtain ⟨f, stim, drawn, cycle⟩ := step_eq_execInWord s
  rw [cycle] at stepped
  exact execInWord_memory_wf (s := { s with stim := stim, drawn := drawn }) form stepped

end Sys2Proof.Machine
end

section
/-! SUPPORT. The encoder and the decoder row by row (30 rules R82 to R99, 43 rule R162): the `match` value of a row is matched
by its own pattern, and each format is read back field by field. -/

namespace Sys2Proof

/-! ## Rows selected by a condition word -/

theorem kMatches_kWord : ∀ i ∈ kRows, kMatches i (kWord i) = true := by decide

theorem jMatches_jWord : ∀ i ∈ jRows, jMatches i (jWord i) = true := by decide

@[simp] theorem kWord_length (i : Instr) : (kWord i).length = 18 := by simp [kWord]

@[simp] theorem jWord_length (i : Instr) : (jWord i).length = 8 := by simp [jWord]

theorem decodeK_kWord {i : Instr} (row : i ∈ kRows) (rest : Bits) : decodeK i (kWord i ++ rest) = .ok (i, rest) := by
  rw [decodeK, withBits_append (kWord_length i), orMismatch, if_pos (kMatches_kWord i row)]

theorem decodeJ_jWord {i : Instr} (row : i ∈ jRows) (rest : Bits) : decodeJ i (jWord i ++ rest) = .ok (i, rest) := by
  rw [decodeJ, withBits_append (jWord_length i), orMismatch, if_pos (jMatches_jWord i row)]

/-! ## Formats -/

/-- A code is read back where its number names it. -/
theorem decodeCode_bitsOf {α : Type} {n : Nat} {f : Nat → Option α} (mk : α → Instr) {num : BitVec n} {c : α}
    (named : f num.toNat = some c) (rest : Bits) : decodeCode n f mk (bitsOf num ++ rest) = .ok (mk c, rest) := by
  have number : natOf (bitsOf num) = num.toNat := by
    have wide : natOf (numBits n num.toNat) = num.toNat := natOf_numBits num.isLt
    rwa [show numBits n num.toNat = bitsOf num from rfl] at wide
  simp only [decodeCode, withBits_append (bitsOf_length num), number, named]

theorem statusOfNum_statusNum (st : AlarmStatus) : statusOfNum (statusNum st).toNat = some st := by
  cases st <;> rfl

theorem cmdRespOfNum_cmdRespNum (r : CmdResp) : cmdRespOfNum (cmdRespNum r).toNat = some r := by
  cases r <;> rfl

theorem txResultOfNum_txResultNum (r : TxResult) : txResultOfNum (txResultNum r).toNat = some r := by
  cases r <;> rfl

theorem trcReasonOfNum_trcReasonNum (r : TrcReason) : trcReasonOfNum (trcReasonNum r).toNat = some r := by
  cases r <;> rfl

theorem flagBits_length : flagBits.length = 8 := rfl

/-- A row number or a length octet is read back. -/
theorem natOf_octet {k : Nat} (small : k < 256) : natOf (numBits 8 k) = k := natOf_numBits small

/-- The two flags around a payload that the length octet admits (30 rule R83). -/
theorem decodeRaw_flags {p : Bits} (fits : p.length ≤ maxPayload) (rest : Bits) :
    decodeRaw (16 + p.length) (flagBits ++ p ++ flagBits ++ rest) = .ok (.rawFrame p, rest) := by
  have admitted : ¬(16 + p.length < 16 ∨ 16 + maxPayload < 16 + p.length) := by omega
  have payload : 16 + p.length - 16 = p.length := by omega
  rw [decodeRaw, if_neg admitted, payload]
  simp only [List.append_assoc, withBits_append flagBits_length, withBits_append (rfl : p.length = p.length)]
  simp [orMismatch]

/-- The eight fields of a Zone Report (30 rules R85, R87). -/
theorem decodeZone_zoneBits (bank : Bool) (gap1 : BitVec 7) (active trig : Byte) (gap2 : BitVec 31) (rest : Bits) :
    decodeZone (zoneBits bank gap1 active trig gap2 ++ rest) = .ok (.zoneReport bank gap1 active trig gap2, rest) := by
  have bit (b : Bool) : [b].length = 1 := rfl
  simp only [decodeZone, zoneBits, List.append_assoc, withBits_append flagBits_length, withBits_append (bitsOf_length _),
    withBits_append (bit _)]
  simp [orMismatch]

/-- The eleven fields of a Status Report (30 rules R85, R88). -/
theorem decodeStatus_statusBits (gap1 : Byte) (a b c : Bool) (gap2 : BitVec 5) (t p : Bool) (gap3 : BitVec 37)
    (rest : Bits) : decodeStatus (statusBits gap1 a b c gap2 t p gap3 ++ rest)
      = .ok (.statusReport gap1 a b c gap2 t p gap3, rest) := by
  have bit (b : Bool) : [b].length = 1 := rfl
  simp only [decodeStatus, statusBits, List.append_assoc, withBits_append flagBits_length,
    withBits_append (bitsOf_length _), withBits_append (bit _)]
  simp [orMismatch]

/-- The four fields of a command frame (30 rule R90). -/
theorem decodeCmd_frame (code : Byte) (rest : Bits) :
    decodeCmd (Config.vRef.hdr ++ bitsOf code ++ flagBits ++ [false] ++ rest) = .ok (.cmdFrame code, rest) := by
  have header : Config.vRef.hdr.length = 24 := rfl
  have bit (b : Bool) : [b].length = 1 := rfl
  simp only [decodeCmd, List.append_assoc, withBits_append header, withBits_append (bitsOf_length _),
    withBits_append flagBits_length, withBits_append (bit _)]
  simp [orMismatch]

/-! ## The input word (30 rule R98) -/

theorem inBits_length (f : InWord) : (inBits f).length = 24 := by simp [inBits]

/-- The bit `k` of a vector whose bits stand behind `before`. -/
theorem getD_bitsOf {m k start : Nat} {before : Bits} (stands : before.length = start) (after : Bits) (v : BitVec m)
    (small : k < m) : (before ++ bitsOf v ++ after).getD (start + k) false = v.getLsbD k := by
  subst stands
  have inField : k < (bitsOf v).length := by simpa using small
  rw [List.append_assoc, List.getD_append_right _ _ _ _ (Nat.le_add_right _ _), Nat.add_sub_cancel_left,
    List.getD_append _ _ _ _ inField, List.getD_eq_getElem _ _ inField]
  simp [bitsOf]

/-- A vector's bits among other bits are the vector's slice of the word. -/
theorem vecOf_extractLsb' {n m : Nat} (before after : Bits) (v : BitVec m) (fits : before.length + m ≤ n) :
    (vecOf n (before ++ bitsOf v ++ after)).extractLsb' before.length m = v := by
  apply BitVec.eq_of_getLsbD_eq
  intro k small
  have inWord : before.length + k < n := by omega
  rw [BitVec.getLsbD_extractLsb', vecOf_getLsbD, getD_bitsOf rfl after v small]
  simp [small, inWord]

/-- Every field stands where 30 rule R98 puts it. -/
theorem inFields_inWordOf (f : InWord) : inFields (inWordOf f) = f := by
  have code : (inWordOf f).extractLsb' 4 8 = f.cmdCode :=
    vecOf_extractLsb' [f.rst, f.pclk, f.pdataI, f.cmdValid]
      ([f.dbgTraceEn, f.errClr, f.storeFail, f.reserved] ++ bitsOf f.statusInit) f.cmdCode (by simp)
  have init : (inWordOf f).extractLsb' 16 8 = f.statusInit := by
    have slice := vecOf_extractLsb' (n := 24) ([f.rst, f.pclk, f.pdataI, f.cmdValid] ++ bitsOf f.cmdCode
      ++ [f.dbgTraceEn, f.errClr, f.storeFail, f.reserved]) [] f.statusInit (by simp)
    simpa [inWordOf, inBits] using slice
  have level (k : Nat) : (inWordOf f).getLsbD k = (decide (k < 24) && (inBits f).getD k false) := vecOf_getLsbD _ _ _
  simp [inFields, code, init, level, inBits, bitsOf, -BitVec.getLsbD_eq_getElem]

/-- The bits of a word's fields are the word's bits, in order. -/
theorem inBits_inFields (w : BitVec 24) : inBits (inFields w) = bitsOf w := by
  simp [inBits, inFields, bitsOf, List.range_succ]

theorem inWordOf_inFields (w : BitVec 24) : inWordOf (inFields w) = w := by
  rw [inWordOf, inBits_inFields, vecOf_bitsOf]

/-! ## Every row -/

/-- The bits of a well-formed instruction are read back by the decoder of its row. -/
theorem decodeRow_payload {i : Instr} (wf : i.wf = true) (rest : Bits) :
    decodeRow (rowNumber i) (payload i ++ rest) = .ok (i, rest) := by
  cases i with
  | reset | errClear | edgeDetect | decode | sample | sampleSuspend | winAppend | ageInc | flagMatch | framePublish
  | frameDrop | boundaryToggle | syncRecover | quietDetect | cmdAccept | cmdReject | txLoad | txWaitWindow
  | txWinTimeout | txDrive | txAdvance | txRelease | txStallL | txStallH | txClkTimeoutL | txClkTimeoutH
  | storeFailLatch => exact decodeK_kWord (by decide) rest
  | destuff | discardMalformed | discardLength | zoneDecode | zoneForce | statusDecode | nextStatusRich
  | nextStatusSimple | updPublishStatus | updPublishZone | updStoreStatus | updStoreZone | trace =>
    exact decodeJ_jWord (by decide) rest
  | stuff x =>
    have small : x.length ≤ 255 := of_decide_eq_true wf
    simp only [rowNumber, payload, decodeRow, List.append_assoc, withBits_append (numBits_length _ _)]
    rw [natOf_octet (by omega), withBits_append rfl]
  | txBuild code => simp only [rowNumber, payload, decodeRow, withBits_append (bitsOf_length code), vecOf_bitsOf]
  | statusLoad => rfl
  | flagVRef => simp [rowNumber, payload, decodeRow, withBits_append flagBits_length, orMismatch]
  | rawFrame p =>
    have fits : p.length ≤ 112 := of_decide_eq_true wf
    simp only [rowNumber, payload, decodeRow, List.append_assoc, withBits_append (numBits_length _ _)]
    rw [natOf_octet (by omega)]
    simpa only [List.append_assoc] using decodeRaw_flags fits rest
  | zoneReport bank gap1 active trig gap2 => exact decodeZone_zoneBits bank gap1 active trig gap2 rest
  | statusReport gap1 a b c gap2 t p gap3 => exact decodeStatus_statusBits gap1 a b c gap2 t p gap3 rest
  | cmdFrame code => exact decodeCmd_frame code rest
  | inWord f =>
    have word : decodeIn (vecOf 24 (inBits f)) = .inWord f := congrArg Instr.inWord (inFields_inWordOf f)
    simp only [rowNumber, payload, decodeRow, withBits_append (inBits_length f), word]
  | statusCode st => exact decodeCode_bitsOf _ (statusOfNum_statusNum st) rest
  | persistedByte b => simp only [rowNumber, payload, decodeRow, withBits_append (bitsOf_length b), vecOf_bitsOf]
  | cmdResp r => exact decodeCode_bitsOf _ (cmdRespOfNum_cmdRespNum r) rest
  | txResult r => exact decodeCode_bitsOf _ (txResultOfNum_txResultNum r) rest
  | trcReason r => exact decodeCode_bitsOf _ (trcReasonOfNum_trcReasonNum r) rest
  | errBits e => simp only [rowNumber, payload, decodeRow, withBits_append (bitsOf_length e), vecOf_bitsOf]

theorem rowNumber_lt (i : Instr) : rowNumber i < 55 := by cases i <;> simp [rowNumber]

/-- A stream that begins with a row's number is read by the decoder of that row. -/
theorem decode_rowNumber {k : Nat} (small : k < 256) (b : Bits) : decode (numBits 8 k ++ b) = decodeRow k b := by
  rw [decode, withBits_append (numBits_length 8 k), natOf_octet small]

/-- Settles O1: the row number is read back, then the row's own bits. -/
theorem decodeEncode : Obligations.DecodeEncode := by
  intro i rest wf
  have small : rowNumber i < 256 := (rowNumber_lt i).trans (by decide)
  rw [encode, List.append_assoc, decode_rowNumber small, decodeRow_payload wf]

/-- Settles O2: each field is a field of `inFields`, and packing and unpacking undo each other. -/
theorem inputWordLayout : Obligations.InputWordLayout := by
  refine ⟨fun f => ?_, inWordOf_inFields, inFields_inWordOf⟩
  have fields : inFields (inWordOf f) = f := inFields_inWordOf f
  exact ⟨congrArg InWord.rst fields, congrArg InWord.pclk fields, congrArg InWord.pdataI fields,
    congrArg InWord.cmdValid fields, congrArg InWord.cmdCode fields, congrArg InWord.dbgTraceEn fields,
    congrArg InWord.errClr fields, congrArg InWord.storeFail fields, congrArg InWord.reserved fields,
    congrArg InWord.statusInit fields⟩

/-- A code word that no value has is refused by the decoder of its row. -/
theorem decodeCode_reserved {α : Type} {n : Nat} {f : Nat → Option α} (mk : α → Instr) {word : Bits}
    (width : word.length = n) (unnamed : f (natOf word) = none) (rest : Bits) :
    decodeCode n f mk (word ++ rest) = .error .reservedCode := by
  rw [decodeCode, withBits_append width, unnamed]

/-- Settles O3: the listed words are evaluated; the reserved codes name no value. -/
theorem specWordsDecode : Obligations.SpecWordsDecode := by
  have reservedStatus : statusOfNum (natOf [true, true, true]) = none := rfl
  have reservedResp : cmdRespOfNum (natOf [true, true]) = none := rfl
  have reservedResult : txResultOfNum (natOf [true, true]) = none := rfl
  refine ⟨by decide, by decide, by decide, by decide, by decide, by decide, by decide, by decide, by decide, by decide,
    by decide, fun rest => ?_, fun rest => ?_, fun rest => ?_⟩
  · rw [List.append_assoc, decode_rowNumber (by decide)]
    exact decodeCode_reserved _ rfl reservedStatus rest
  · rw [List.append_assoc, decode_rowNumber (by decide)]
    exact decodeCode_reserved _ rfl reservedResp rest
  · rw [List.append_assoc, decode_rowNumber (by decide)]
    exact decodeCode_reserved _ rfl reservedResult rest

end Sys2Proof
end

section
/-! SUPPORT. The selection by the condition words (30 rule R99, 43 rule R162): which patterns exclude each other, which
operation of the transmitter stage is selected, and what a row that is not selected does. -/

namespace Sys2Proof.Machine

/-! ## Patterns that exclude each other -/

/-- Some K bit is asked to be 1 by one row's pattern and 0 by the other's. -/
def contradicts (i j : Instr) : Bool :=
  (kPattern i).any fun p => (kPattern j).any fun q => p.1 == q.1 && p.2 != q.2

theorem kBit_of_firesK {i : Instr} {s : State} (fires : firesK i s = true) {p : KBit × Bool} (asked : p ∈ kPattern i) :
    kBit s p.1 = p.2 := by
  rw [firesK, List.all_eq_true] at fires
  exact eq_of_beq (fires p asked)

theorem not_fires_both {i j : Instr} (contradict : contradicts i j = true) (s : State) :
    ¬(firesK i s = true ∧ firesK j s = true) := by
  rintro ⟨first, second⟩
  simp only [contradicts, List.any_eq_true, Bool.and_eq_true, beq_iff_eq, bne_iff_ne] at contradict
  obtain ⟨p, inFirst, q, inSecond, sameBit, otherValue⟩ := contradict
  apply otherValue
  rw [← kBit_of_firesK first inFirst, ← kBit_of_firesK second inSecond, sameBit]

/-- Of rows that exclude each other at most one is chosen. -/
theorem length_filter_le_one {α : Type} {p : α → Bool} {l : List α}
    (exclusive : l.Pairwise fun a b => ¬(p a = true ∧ p b = true)) : (l.filter p).length ≤ 1 := by
  induction l with
  | nil => simp
  | cons a l ih =>
    obtain ⟨others, rest⟩ := List.pairwise_cons.mp exclusive
    cases chosen : p a with
    | false =>
      rw [List.filter_cons_of_neg (by simp [chosen])]
      exact ih rest
    | true =>
      have none : l.filter p = [] := List.filter_eq_nil_iff.mpr fun b member other => others b member ⟨chosen, other⟩
      rw [List.filter_cons_of_pos chosen, none]
      rfl

theorem stageGroups_contradict : ∀ g ∈ stageGroups, g.Pairwise fun i j => contradicts i j = true := by decide

/-! ## The transmitter stage -/

/-- The exclusive group of stage 5 (46 rule R215). -/
def txRows : List Instr :=
  [.txLoad, .txWaitWindow, .txWinTimeout, .txDrive, .txAdvance, .txRelease, .txStallL, .txStallH, .txClkTimeoutL,
    .txClkTimeoutH]

/-- While a command is pending or a transmission is in flight some row of 46 rule R215's table is selected. -/
theorem exists_txRow_fires {s : State} (run : s.inp.rst = false) (active : ¬(s.txState = .idle ∧ s.cpValid = false)) :
    ∃ i ∈ txRows, firesK i s = true := by
  cases state : s.txState with
  | idle =>
    have pending : s.cpValid = true := by simpa [state] using active
    cases window : s.txw with
    | true => exact ⟨.txLoad, by decide, by simp [firesK, kPattern, kBit, run, state, pending, window]⟩
    | false =>
      by_cases late : s.variant.windowTimeout ≤ s.wtCnt + 1
      · exact ⟨.txWinTimeout, by decide, by simp [firesK, kPattern, kBit, run, state, pending, window, late]⟩
      · exact ⟨.txWaitWindow, by decide, by
          simp [firesK, kPattern, kBit, run, state, pending, window, not_le.mp late]⟩
  | waitLow =>
    cases clock : s.inp.pclk with
    | false => exact ⟨.txDrive, by decide, by simp [firesK, kPattern, kBit, run, state, clock]⟩
    | true =>
      by_cases late : s.variant.clkTimeout ≤ s.ctCnt + 1
      · exact ⟨.txClkTimeoutL, by decide, by simp [firesK, kPattern, kBit, run, state, clock, late]⟩
      · exact ⟨.txStallL, by decide, by simp [firesK, kPattern, kBit, run, state, clock, not_le.mp late]⟩
  | waitHigh =>
    cases clock : s.inp.pclk with
    | false =>
      by_cases late : s.variant.clkTimeout ≤ s.ctCnt + 1
      · exact ⟨.txClkTimeoutH, by decide, by simp [firesK, kPattern, kBit, run, state, clock, late]⟩
      · exact ⟨.txStallH, by decide, by simp [firesK, kPattern, kBit, run, state, clock, not_le.mp late]⟩
    | true =>
      by_cases last : s.txIdx + 1 = s.txb.length
      · exact ⟨.txRelease, by decide, by simp [firesK, kPattern, kBit, run, state, clock, last]⟩
      · exact ⟨.txAdvance, by decide, by simp [firesK, kPattern, kBit, run, state, clock, last]⟩

/-- Every row of the transmitter stage asks for a pending command or a transmission in flight. -/
theorem active_of_txRow_fires {s : State} {i : Instr} (row : i ∈ txRows) (fires : firesK i s = true) :
    ¬(s.txState = .idle ∧ s.cpValid = false) := by
  have asks : ∀ i ∈ txRows, (KBit.cpv, true) ∈ kPattern i ∨ (KBit.txa, true) ∈ kPattern i := by decide
  rintro ⟨idle, empty⟩
  rcases asks i row with pending | busy
  · have : s.cpValid = true := kBit_of_firesK fires pending
    simp [empty] at this
  · have : (s.txState != .idle) = true := kBit_of_firesK fires busy
    simp [idle] at this

/-- Settles O6: the patterns of a group contradict each other, and those of stage 5 cover what is active. -/
theorem exclusiveGroups : Obligations.ExclusiveGroups := by
  intro s
  refine ⟨fun g group => ?_, fun run => ?_, not_fires_both (by decide) s, not_fires_both (by decide) s⟩
  · exact length_filter_le_one ((stageGroups_contradict g group).imp fun contradict => not_fires_both contradict s)
  · change txRows.filter (fun i => firesK i s) = [] ↔ _
    rw [List.filter_eq_nil_iff]
    constructor
    · intro none
      by_contra active
      obtain ⟨i, row, fires⟩ := exists_txRow_fires run active
      exact none i row fires
    · exact fun resting i row fires => active_of_txRow_fires row fires resting

/-! ## Rows that are not selected -/

/-- The meaning of a K row is what it does when its pattern is matched. -/
theorem exec_kRow {i : Instr} (row : i ∈ kRows) (s : State) : ∃ r, exec i s = whenK i s r := by
  simp only [kRows, List.mem_cons, List.not_mem_nil, or_false] at row
  rcases row with rfl | rfl | rfl | rfl | rfl | rfl | rfl | rfl | rfl | rfl | rfl | rfl | rfl | rfl | rfl | rfl | rfl
    | rfl | rfl | rfl | rfl | rfl | rfl | rfl | rfl | rfl | rfl <;> exact ⟨_, rfl⟩

/-- The meaning of a J row is what it does when its pattern is matched in a DECODE cycle. -/
theorem exec_jRow {i : Instr} (row : i ∈ jRows) (s : State) : ∃ r, exec i s = whenJ i s r := by
  simp only [jRows, List.mem_cons, List.not_mem_nil, or_false] at row
  rcases row with rfl | rfl | rfl | rfl | rfl | rfl | rfl | rfl | rfl | rfl | rfl | rfl | rfl <;> exact ⟨_, rfl⟩

/-- Settles O8. -/
theorem unselectedChangesNothing : Obligations.UnselectedChangesNothing := by
  intro s i
  refine ⟨fun row silent => ?_, fun row silent => ?_, fun run => ?_⟩
  · obtain ⟨r, meaning⟩ := exec_kRow row s
    rw [meaning, whenK_of_not_fires silent]
  · obtain ⟨r, meaning⟩ := exec_jRow row s
    rw [meaning, whenJ_of_not_fires silent]
  · change execStatusLoad s = .next s
    rw [execStatusLoad, if_neg (by simp [run])]

end Sys2Proof.Machine
end

section
/-! SUPPORT. The format rows that the decoder reads and the code words (30 rules R85 to R97): the fields of a destuffed frame,
that the decoder always completes, and what it leaves under `V_REF`. -/

namespace Sys2Proof.Machine

/-! ## The code words -/

/-- Settles O45: each row is one update, and the key code goes on the wire least significant bit first. -/
theorem codeWordsResult : Obligations.CodeWordsResult :=
  fun _ => ⟨fun _ => rfl, fun _ => rfl, fun _ => rfl, fun _ => rfl, fun _ => rfl, fun _ => rfl, fun _ => rfl⟩

/-! ## The decoder completes -/

theorem whenJ_next {i : Instr} {s : State} {r : Result} (update : ∃ t, r = .next t) : ∃ t, whenJ i s r = .next t := by
  unfold whenJ
  split
  · exact update
  · exact ⟨s, rfl⟩

/-- A list of operations that always answer answers. -/
theorem runAll_next {fs : List (State → Result)} (parts : ∀ f ∈ fs, ∀ s, ∃ t, f s = .next t) (s : State) :
    ∃ t, runAll fs s = .next t := by
  induction fs generalizing s with
  | nil => exact ⟨s, rfl⟩
  | cons f fs ih =>
    obtain ⟨u, first⟩ := parts f List.mem_cons_self s
    obtain ⟨t, rest⟩ := ih (fun g member => parts g (List.mem_cons_of_mem _ member)) u
    exact ⟨t, by rw [runAll_cons, first, andThen_next, rest]⟩

theorem execZoneForce_next (s : State) : ∃ t, execZoneForce s = .next t := by
  refine whenJ_next (runAll_next (fun f member u => ?_) _)
  simp only [List.mem_cons, List.not_mem_nil, or_false] at member
  rcases member with rfl | rfl <;> exact whenJ_next ⟨_, rfl⟩

theorem execZoneDecode_next (s : State) : ∃ t, execZoneDecode s = .next t := whenJ_next (execZoneForce_next _)

theorem execStatusDecode_next (s : State) : ∃ t, execStatusDecode s = .next t := by
  refine whenJ_next (runAll_next (fun f member u => ?_) _)
  simp only [List.mem_cons, List.not_mem_nil, or_false] at member
  rcases member with rfl | rfl | rfl | rfl <;> exact whenJ_next ⟨_, rfl⟩

theorem readFrame_next (d : Bits) (s : State) : ∃ t, readFrame d s = .next t := by
  refine runAll_next (fun f member u => ?_) _
  simp only [List.mem_cons, List.not_mem_nil, or_false] at member
  rcases member with rfl | rfl
  · exact execZoneDecode_next u
  · exact execStatusDecode_next u

/-! ## A frame of 72 bits -/

/-- A part of DECODE is selected when the J bits that its pattern names have the values it asks for (43 rule R162). -/
theorem firesJ_of_decoding {i : Instr} {s : State} (decoding : s.net.decoding = true) :
    firesJ i s = (jPattern i).all fun p => jBit s p.1 == p.2 := by
  rw [firesJ, decoding, Bool.true_and]

/-- On the wire stands a frame of 72 bits whose discriminator is `kind`: 0 of a Zone Report, 1 of a Status Report. -/
structure Reading (kind : Bool) (s : State) : Prop where
  decoding : s.net.decoding = true
  long : s.net.dst.length = Config.frameLen
  disc : frameBit s.net.dst s.variant.idxDisc = kind

theorem Reading.odd {kind : Bool} {s : State} (reading : Reading kind s) : jBit s .odd = false := by
  rw [jBit, reading.long]
  rfl

theorem Reading.n72 {kind : Bool} {s : State} (reading : Reading kind s) : jBit s .n72 = false := by
  rw [jBit, reading.long]
  rfl

theorem Reading.jDisc {kind : Bool} {s : State} (reading : Reading kind s) : jBit s .disc = kind := by
  rw [jBit, reading.long, reading.disc]
  rfl

/-- Which parts of DECODE a whole frame selects, by its discriminator. -/
theorem Reading.fires {kind : Bool} {s : State} (reading : Reading kind s) :
    firesJ .zoneDecode s = !kind ∧ firesJ .zoneForce s = (!kind && jBit s .force) ∧ firesJ .statusDecode s = kind
      ∧ firesJ .nextStatusRich s = (kind && !jBit s .simple) ∧ firesJ .nextStatusSimple s = (kind && jBit s .simple)
      ∧ firesJ .updPublishStatus s = kind ∧ firesJ .updStoreStatus s = (kind && jBit s .chg) := by
  simp [firesJ_of_decoding reading.decoding, jPattern, reading.odd, reading.n72, reading.jDisc]

theorem presentFrame_reading {d : Bits} {s : State} {kind : Bool} (long : d.length = Config.frameLen)
    (disc : frameBit d s.variant.idxDisc = kind) : Reading kind (presentFrame d s) := ⟨rfl, long, disc⟩

/-- A frame whose discriminator is 0 is read as a Zone Report, and without ZONE_TRIG_FORCES only pulses its masks. -/
theorem readFrame_zone {d : Bits} {s : State} (long : d.length = Config.frameLen)
    (disc : frameBit d s.variant.idxDisc = false) (plain : s.variant.zoneTrigForces = false) :
    readFrame d s = .next (pulseZone (zoneMasks s.variant d) (setReason .zoneReport (presentFrame d s))) := by
  have present : Reading false (presentFrame d s) := presentFrame_reading long disc
  have masked : Reading false (pulseZone (zoneMasks s.variant d) (setReason .zoneReport (presentFrame d s))) :=
    ⟨rfl, long, disc⟩
  obtain ⟨decodes, -⟩ := present.fires
  obtain ⟨-, forces, reports, -⟩ := masked.fires
  have zone : execZoneDecode (presentFrame d s)
      = .next (pulseZone (zoneMasks s.variant d) (setReason .zoneReport (presentFrame d s))) := by
    rw [execZoneDecode, whenJ_of_fires decodes]
    exact whenJ_of_not_fires (forces.trans (by simp [jBit, plain])) _
  rw [readFrame, runAll_cons, zone, andThen_next, runAll_cons, execStatusDecode, whenJ_of_not_fires reports]
  rfl

/-- The frame `d` has been read as a Status Report whose next status is `next`, before the update. -/
def reported (d : Bits) (next : AlarmStatus) (s : State) : State :=
  setNext next (setReason .statusReport (presentFrame d s))

/-- A frame whose discriminator is 1 is read as a Status Report; in rich mode it updates the status by 43 rule R170. -/
theorem readFrame_status {d : Bits} {s : State} {next : AlarmStatus} (long : d.length = Config.frameLen)
    (disc : frameBit d s.variant.idxDisc = true) (rich : s.variant.decodeMode = .rich)
    (table : nextStatusRich s.status (frameBit d s.variant.idxA) (frameBit d s.variant.idxB)
      (frameBit d s.variant.idxC) (frameBit d s.variant.idxTotal) (frameBit d s.variant.idxPartial) = next) :
    readFrame d s = .next (publishNext
      (if next != s.status then storeNext (reported d next s) else reported d next s)) := by
  have present : Reading true (presentFrame d s) := presentFrame_reading long disc
  have reasoned : Reading true (setReason .statusReport (presentFrame d s)) := ⟨rfl, long, disc⟩
  have named : Reading true (reported d next s) := ⟨rfl, long, disc⟩
  have stored : Reading true (if next != s.status then storeNext (reported d next s) else reported d next s) := by
    split <;> exact ⟨rfl, long, disc⟩
  obtain ⟨zone, -, reports, -⟩ := present.fires
  obtain ⟨-, -, -, byTable, -⟩ := reasoned.fires
  obtain ⟨-, -, -, -, bySimple, -, changed⟩ := named.fires
  obtain ⟨-, -, -, -, -, publishes, -⟩ := stored.fires
  have nextRich : execNextStatusRich (setReason .statusReport (presentFrame d s)) = .next (reported d next s) := by
    rw [execNextStatusRich, whenJ_of_fires (byTable.trans (by simp [jBit, rich]))]
    exact congrArg (fun st => Host.Outcome.next (setNext st _)) table
  have nextSimple : execNextStatusSimple (reported d next s) = .next (reported d next s) :=
    whenJ_of_not_fires (bySimple.trans (by simp [reported, jBit, rich])) _
  have store : execUpdStoreStatus (reported d next s)
      = .next (if next != s.status then storeNext (reported d next s) else reported d next s) := by
    rw [execUpdStoreStatus, whenJ, changed]
    exact (apply_ite Host.Outcome.next _ _ _).symm
  rw [readFrame, runAll_cons, execZoneDecode, whenJ_of_not_fires zone, andThen_next, runAll_cons, execStatusDecode,
    whenJ_of_fires reports, runAll_cons, nextRich, andThen_next, runAll_cons, nextSimple, andThen_next, runAll_cons, store,
    andThen_next, runAll_cons, execUpdPublishStatus, whenJ_of_fires publishes]
  rfl

/-- The update of a Status Report, register by register (44 rule R186). -/
theorem publishNext_of_report (d : Bits) (s : State) (next : AlarmStatus) (changed : Bool) :
    publishNext (if changed then storeNext (reported d next s) else reported d next s) = { s with
      net := { s.net with decoding := true, dst := d, reason := .statusReport, nextStatus := next }
      status := next
      out := { s.out with
        st := some next
        store := if changed then some (storeMap s.variant next) else s.out.store } } := by
  cases changed <;>
    simp [publishNext, storeNext, reported, setNext, setReason, presentFrame, setStatus, pulseStatus, pulseStore]

/-! ## The fields of the two reports in `V_REF`'s layout -/

theorem zoneBits_length (bank : Bool) (gap1 : BitVec 7) (active trig : Byte) (gap2 : BitVec 31) :
    (zoneBits bank gap1 active trig gap2).length = Config.frameLen := by
  simp only [zoneBits, List.length_append, List.length_singleton, bitsOf_length, flagBits_length]

theorem statusBits_length (gap1 : Byte) (a b c : Bool) (gap2 : BitVec 5) (t p : Bool) (gap3 : BitVec 37) :
    (statusBits gap1 a b c gap2 t p gap3).length = Config.frameLen := by
  simp only [statusBits, List.length_append, List.length_singleton, bitsOf_length, flagBits_length]

/-- The two octets of a Zone Report (30 rule R87). -/
theorem zoneBits_octets (bank : Bool) (gap1 : BitVec 7) (active trig : Byte) (gap2 : BitVec 31) {k : Nat} (small : k < 8) :
    frameBit (zoneBits bank gap1 active trig gap2) (16 + k) = active.getLsbD k
      ∧ frameBit (zoneBits bank gap1 active trig gap2) (24 + k) = trig.getLsbD k := by
  constructor
  · have start : (flagBits ++ [bank] ++ bitsOf gap1).length = 16 := by
      simp only [List.length_append, List.length_singleton, bitsOf_length, flagBits_length]
    have field := getD_bitsOf start (bitsOf trig ++ bitsOf gap2 ++ [false] ++ flagBits) active small
    simpa only [frameBit, zoneBits, List.append_assoc] using field
  · have start : (flagBits ++ [bank] ++ bitsOf gap1 ++ bitsOf active).length = 24 := by
      simp only [List.length_append, List.length_singleton, bitsOf_length, flagBits_length]
    have field := getD_bitsOf start (bitsOf gap2 ++ [false] ++ flagBits) trig small
    simpa only [frameBit, zoneBits, List.append_assoc] using field

/-- An octet of the frame fills the half of the mask that the bank selects (30 rule R89). -/
theorem zoneMask_of_octet {v : Variant} {first : Nat} {d : Bits} {octet : Byte}
    (field : ∀ k < 8, frameBit d (first + k) = octet.getLsbD k) :
    zoneMask v first d = if frameBit d v.idxBank then octet.setWidth 16 <<< 8 else octet.setWidth 16 := by
  apply BitVec.eq_of_getLsbD_eq
  intro z small
  have bit : (zoneMask v first d).getLsbD z = (decide (bankOffset v d ≤ z ∧ z < bankOffset v d + 8)
      && frameBit d (first + (z - bankOffset v d))) := by
    simp [zoneMask, vecOf_getLsbD, small, -BitVec.getLsbD_eq_getElem]
  rw [bit]
  cases bank : frameBit d v.idxBank with
  | false =>
    have offset : bankOffset v d = 0 := by simp [bankOffset, bank]
    by_cases low : z < 8
    · simp [offset, small, low, field z low, -BitVec.getLsbD_eq_getElem]
    · simp [offset, low, BitVec.getLsbD_of_ge octet z (by omega), -BitVec.getLsbD_eq_getElem]
  | true =>
    have offset : bankOffset v d = 8 := by simp [bankOffset, bank]
    by_cases low : z < 8
    · simp [offset, low, not_le.mpr low, -BitVec.getLsbD_eq_getElem]
    · have place : z - 8 < 8 := by omega
      have inMask : z - 8 < 16 := by omega
      simp [offset, small, low, not_lt.mp low, inMask, field (z - 8) place, -BitVec.getLsbD_eq_getElem]

/-- Settles O43. -/
theorem zoneReportFormatResult : Obligations.ZoneReportFormatResult := by
  intro s bank gap1 active trig gap2
  refine ⟨readFrame_next _ s, fun vRef => ?_⟩
  have long := zoneBits_length bank gap1 active trig gap2
  have disc : frameBit (zoneBits bank gap1 active trig gap2) s.variant.idxDisc = false := by rw [vRef]; rfl
  have selects : frameBit (zoneBits bank gap1 active trig gap2) Config.vRef.idxBank = bank := rfl
  have activeMask : zoneMask Config.vRef Config.vRef.idxActive (zoneBits bank gap1 active trig gap2) = _ :=
    zoneMask_of_octet fun k small => (zoneBits_octets bank gap1 active trig gap2 small).1
  have trigMask : zoneMask Config.vRef (Config.vRef.idxActive + 8) (zoneBits bank gap1 active trig gap2) = _ :=
    zoneMask_of_octet fun k small => (zoneBits_octets bank gap1 active trig gap2 small).2
  have reading := readFrame_zone long disc (by rw [vRef]; rfl)
  rw [vRef, zoneMasks, activeMask, trigMask, selects] at reading
  exact ⟨_, reading⟩

/-- Settles O44. -/
theorem statusReportFormatResult : Obligations.StatusReportFormatResult := by
  intro s gap1 a b c gap2 t p gap3
  refine ⟨readFrame_next _ s, fun vRef => ?_⟩
  have long := statusBits_length gap1 a b c gap2 t p gap3
  have disc : frameBit (statusBits gap1 a b c gap2 t p gap3) s.variant.idxDisc = true := by rw [vRef]; rfl
  have reading := readFrame_status (next := nextStatusRich s.status a b c t p) long disc (by rw [vRef]; rfl)
    (by rw [vRef]; rfl)
  have persisted (st : AlarmStatus) : storeMap s.variant st = (statusNum st).setWidth 8 := by rw [vRef]; rfl
  rw [publishNext_of_report, persisted] at reading
  exact ⟨_, reading⟩

end Sys2Proof.Machine
end

section
/-! SUPPORT. Which input ports a cycle reads (93 U12): the cycle's operations are run with two input words side by side, and
answer the same wherever the two agree on the ports that are read. -/

namespace Sys2Proof.Machine

/-- The state with other levels on the input ports. -/
def withInp (x : InWord) (s : State) : State := { s with inp := x }

/-- From `s` the operation answers the same under both input words, and leaves the input levels as they are. -/
def Alike (f g : InWord) (op : State → Result) (s : State) : Prop :=
  ∃ r : Result, op (withInp f s) = andThen r (fun t => .next (withInp f t))
    ∧ op (withInp g s) = andThen r (fun t => .next (withInp g t))

/-- The levels that the condition words read agree (30 rule R99, 43 rule R162). -/
structure SameLevels (f g : InWord) : Prop where
  rst : f.rst = g.rst
  pclk : f.pclk = g.pclk
  cmdValid : f.cmdValid = g.cmdValid
  dbgTraceEn : f.dbgTraceEn = g.dbgTraceEn
  errClr : f.errClr = g.errClr
  storeFail : f.storeFail = g.storeFail

/-! ## How operations are put together -/

theorem alike_next {f g : InWord} {u : State → State} {s : State} (t : State) (first : u (withInp f s) = withInp f t)
    (second : u (withInp g s) = withInp g t) : Alike f g (fun s => .next (u s)) s :=
  ⟨.next t, congrArg _ first, congrArg _ second⟩

theorem alike_fault (f g : InWord) (e : Fault) (s : State) : Alike f g (fun _ => .fault e) s := ⟨.fault e, rfl, rfl⟩

theorem alike_ite {f g : InWord} {c : State → Prop} [∀ s, Decidable (c s)] {a b : State → Result} {s : State}
    (condition : c (withInp f s) ↔ c (withInp g s)) (yes : c (withInp f s) → Alike f g a s)
    (no : ¬c (withInp f s) → Alike f g b s) : Alike f g (fun s => if c s then a s else b s) s := by
  by_cases holds : c (withInp f s)
  · simpa only [Alike, holds, condition.mp holds, if_true] using yes holds
  · simpa only [Alike, holds, condition.not.mp holds, if_false] using no holds

theorem alike_txState {f g : InWord} {a b c : State → Result} {s : State} (idle : Alike f g a s)
    (waitLow : Alike f g b s) (waitHigh : Alike f g c s) :
    Alike f g (fun s => match s.txState with | .idle => a s | .waitLow => b s | .waitHigh => c s) s := by
  cases state : s.txState with
  | idle => simpa only [Alike, withInp, state] using idle
  | waitLow => simpa only [Alike, withInp, state] using waitLow
  | waitHigh => simpa only [Alike, withInp, state] using waitHigh

/-- The second operation need only be compared from the states that the first one leaves. -/
theorem alike_cons {f g : InWord} {op : State → Result} {ops : List (State → Result)} {s : State}
    (first : Alike f g op s)
    (rest : ∀ t, op (withInp f s) = .next (withInp f t) → Alike f g (runAll ops) t) :
    Alike f g (runAll (op :: ops)) s := by
  obtain ⟨r, left, right⟩ := first
  rw [Alike, runAll_cons, runAll_cons, left, right]
  cases r with
  | next t => exact rest t left
  | fault e => exact ⟨.fault e, rfl, rfl⟩
  | refused e => exact ⟨.refused e, rfl, rfl⟩

theorem alike_nil (f g : InWord) (s : State) : Alike f g (runAll []) s := ⟨.next s, rfl, rfl⟩

theorem alike_runAll {f g : InWord} {ops : List (State → Result)} (parts : ∀ op ∈ ops, ∀ s, Alike f g op s)
    (s : State) : Alike f g (runAll ops) s := by
  induction ops generalizing s with
  | nil => exact alike_nil f g s
  | cons op ops ih =>
    exact alike_cons (parts op List.mem_cons_self s) fun t _ =>
      ih (fun other member => parts other (List.mem_cons_of_mem _ member)) t

section Selection

variable {f g : InWord} (same : SameLevels f g)
include same

theorem kBit_withInp (s : State) (b : KBit) : kBit (withInp f s) b = kBit (withInp g s) b := by
  cases b with
  | rst => exact same.rst
  | pclk => exact same.pclk
  | cmdv => exact same.cmdValid
  | eclr => exact same.errClr
  | sfail => exact same.storeFail
  | fall | txa | txh | fsv | cpv | txw | hit | ins | fits | ovf | last | cte | wte => rfl

theorem jBit_withInp (s : State) (b : JBit) : jBit (withInp f s) b = jBit (withInp g s) b := by
  cases b with
  | dbg => exact same.dbgTraceEn
  | sten | odd | n72 | disc | simple | force | chg => rfl

theorem whenK_alike {i : Instr} {m : State → Result} {s : State} (meaning : Alike f g m s) :
    Alike f g (fun s => whenK i s (m s)) s := by
  have selection : firesK i (withInp f s) = firesK i (withInp g s) := by simp only [firesK, kBit_withInp same]
  exact alike_ite (by rw [selection]) (fun _ => meaning) fun _ => ⟨.next s, rfl, rfl⟩

theorem whenJ_alike {i : Instr} {m : State → Result} {s : State} (meaning : Alike f g m s) :
    Alike f g (fun s => whenJ i s (m s)) s := by
  have selection : firesJ i (withInp f s) = firesJ i (withInp g s) := by
    simp only [firesJ, jBit_withInp same]
    rfl
  exact alike_ite (by rw [selection]) (fun _ => meaning) fun _ => ⟨.next s, rfl, rfl⟩

/-! ## The decoder -/

theorem execZoneForce_alike (s : State) : Alike f g execZoneForce s := by
  refine whenJ_alike same (alike_runAll (fun op member u => ?_) (setNext .triggered s))
  simp only [List.mem_cons, List.not_mem_nil, or_false] at member
  rcases member with rfl | rfl
  · exact whenJ_alike same (alike_next (storeNext u) rfl rfl)
  · exact whenJ_alike same (alike_next (publishNext u) rfl rfl)

theorem execZoneDecode_alike (s : State) : Alike f g execZoneDecode s :=
  whenJ_alike same (execZoneForce_alike same (pulseZone (zoneMasks s.variant s.net.dst) (setReason .zoneReport s)))

theorem execStatusDecode_alike (s : State) : Alike f g execStatusDecode s := by
  refine whenJ_alike same (alike_runAll (fun op member u => ?_) (setReason .statusReport s))
  simp only [List.mem_cons, List.not_mem_nil, or_false] at member
  rcases member with rfl | rfl | rfl | rfl
  · exact whenJ_alike same (alike_next (setNext _ u) rfl rfl)
  · exact whenJ_alike same (alike_next (setNext _ u) rfl rfl)
  · exact whenJ_alike same (alike_next (storeNext u) rfl rfl)
  · exact whenJ_alike same (alike_next (publishNext u) rfl rfl)

theorem execDecode_alike (s : State) : Alike f g execDecode s := by
  refine whenK_alike same (alike_runAll (fun op member u => ?_) (beginDecode s))
  simp only [List.mem_cons, List.not_mem_nil, or_false] at member
  rcases member with rfl | rfl | rfl | rfl | rfl | rfl
  · exact whenJ_alike same (alike_next (setDst _ u) rfl rfl)
  · exact whenJ_alike same (alike_next (raise .malformedFrame u) rfl rfl)
  · exact whenJ_alike same (alike_next (raise .unexpectedLength u) rfl rfl)
  · exact execZoneDecode_alike same u
  · exact execStatusDecode_alike same u
  · exact whenJ_alike same (alike_next (pulseTrace u.net.reason u) rfl rfl)

/-! ## The sampler -/

theorem execFramePublish_alike (s : State) : Alike f g execFramePublish s := by
  refine whenK_alike same (alike_ite Iff.rfl (fun _ => alike_fault f g _ s) fun _ => ?_)
  cases read : memRead s.w (s.w.length - (s.age + s.variant.n).toNat) (s.age + s.variant.n).toNat with
  | none => exact ⟨.fault .noSuchBit, by simp [withInp, read], by simp [withInp, read]⟩
  | some frame => exact ⟨.next (publishFrame frame s), by simp [withInp, read, publishFrame],
      by simp [withInp, read, publishFrame]⟩

/-- SAMPLE reads the data line, and no other port beside the levels. -/
theorem execSample_alike (data : f.pdataI = g.pdataI) (s : State) : Alike f g execSample s := by
  refine whenK_alike same (alike_runAll (fun op member u => ?_) s)
  simp only [List.mem_cons, List.not_mem_nil, or_false] at member
  rcases member with rfl | rfl | rfl | rfl | rfl | rfl | rfl | rfl
  · exact whenK_alike same (alike_next { u with w := appendBit u.variant.cap u.w f.pdataI } rfl (by rw [data]; rfl))
  · exact whenK_alike same (alike_next (incAge u) rfl rfl)
  · exact whenK_alike same (alike_next (setHit _ u) rfl rfl)
  · exact execFramePublish_alike same u
  · exact whenK_alike same (alike_next (raise .oversizeFrame u) rfl rfl)
  · exact whenK_alike same (alike_next (toggleBoundary u) rfl rfl)
  · exact whenK_alike same (alike_next (raise .lostSync u) rfl rfl)
  · exact whenK_alike same (alike_next (setTxw _ u) rfl rfl)

/-! ## The transmitter -/

theorem execTxDrive_alike (s : State) : Alike f g execTxDrive s := by
  refine whenK_alike same ?_
  cases read : memBit s.txb s.txIdx with
  | none => exact ⟨.fault .noSuchBit, by simp [withInp, read], by simp [withInp, read]⟩
  | some b => exact ⟨.next (driveLine b s), by simp [withInp, read, driveLine], by simp [withInp, read, driveLine]⟩

/-! ## The stages -/

theorem stage1_alike (s : State) : Alike f g stage1 s := by
  refine alike_runAll (fun op member u => ?_) s
  simp only [List.mem_cons, List.not_mem_nil, or_false] at member
  rcases member with rfl | rfl
  · exact whenK_alike same (alike_next (acknowledge u) rfl rfl)
  · refine whenK_alike same (alike_next
      { u with net := { u.net with fall := u.pclkQ && !f.pclk }, pclkQ := f.pclk } rfl ?_)
    rw [same.pclk]
    rfl

theorem stage2_alike (s : State) : Alike f g stage2 s :=
  alike_ite Iff.rfl (fun _ => execDecode_alike same s) fun _ => ⟨.next s, rfl, rfl⟩

/-- Stage 3 reads the data line where a sample is taken. -/
theorem stage3_alike {s : State} (data : s.net.fall = true → s.txState = .idle → f.pdataI = g.pdataI) :
    Alike f g stage3 s :=
  alike_ite Iff.rfl
    (fun fall => alike_ite Iff.rfl (fun idle => execSample_alike same (data fall idle) s)
      fun _ => whenK_alike same (alike_next (suspendSampler s) rfl rfl))
    fun _ => ⟨.next s, rfl, rfl⟩

/-- Stage 4 reads the command code where a command is asked for. -/
theorem stage4_alike (code : f.cmdValid = true → f.cmdCode = g.cmdCode) (s : State) : Alike f g stage4 s := by
  refine alike_ite (iff_of_eq (congrArg (· = true) same.cmdValid)) (fun asked => ?_) fun _ => ⟨.next s, rfl, rfl⟩
  refine alike_ite Iff.rfl (fun _ => whenK_alike same (alike_next (raise .busy s) rfl rfl)) fun _ => ?_
  refine whenK_alike same (alike_next (pulseCmdResp .accepted (acceptCommand f.cmdCode s)) rfl ?_)
  rw [code asked]
  rfl

theorem stage5_alike (s : State) : Alike f g stage5 s := by
  have clock : (withInp f s).inp.pclk = true ↔ (withInp g s).inp.pclk = true := iff_of_eq (congrArg (· = true) same.pclk)
  refine alike_txState ?_ ?_ ?_
  · refine alike_ite Iff.rfl (fun _ => ?_) fun _ => ⟨.next s, rfl, rfl⟩
    refine alike_ite Iff.rfl (fun _ => whenK_alike same (alike_next (loadTx (txBuild s.variant s.cpCode) s) rfl rfl))
      fun _ => ?_
    exact alike_ite Iff.rfl (fun _ => whenK_alike same (alike_next (waitWindow s) rfl rfl))
      fun _ => whenK_alike same (alike_next (raise .windowTimeout s) rfl rfl)
  · refine alike_ite clock (fun _ => ?_) fun _ => execTxDrive_alike same s
    exact alike_ite Iff.rfl (fun _ => whenK_alike same (alike_next (stallTx s) rfl rfl))
      fun _ => whenK_alike same (alike_next (raise .clockTimeout s) rfl rfl)
  · refine alike_ite clock (fun _ => ?_) fun _ => ?_
    · exact alike_ite Iff.rfl (fun _ => whenK_alike same (alike_next (pulseTxDone .sent (releaseTx s)) rfl rfl))
        fun _ => whenK_alike same (alike_next (advanceTx s) rfl rfl)
    · exact alike_ite Iff.rfl (fun _ => whenK_alike same (alike_next (stallTx s) rfl rfl))
        fun _ => whenK_alike same (alike_next (raise .clockTimeout s) rfl rfl)

theorem stage6_alike (s : State) : Alike f g stage6 s :=
  alike_ite (iff_of_eq (congrArg (· = true) same.storeFail))
    (fun _ => whenK_alike same (alike_next (raise .storeFail s) rfl rfl)) fun _ => ⟨.next s, rfl, rfl⟩

/-- The stages of a cycle read the data line and the command code only where stages 3 and 4 do. -/
theorem stages_alike {s : State} (run : f.rst = false)
    (data : s.pclkQ = true → f.pclk = false → s.txState = .idle → f.pdataI = g.pdataI)
    (code : f.cmdValid = true → f.cmdCode = g.cmdCode) :
    Alike f g (runAll [stage1, stage2, stage3, stage4, stage5, stage6]) s := by
  refine alike_cons (stage1_alike same s) fun u1 h1 => alike_cons (stage2_alike same u1) fun u2 h2 => ?_
  have edge : u2.net.fall = (s.pclkQ && !f.pclk) := 
    stage2_fall (s := withInp f s) (u2 := withInp f u2) run h1 h2
  have state : u2.txState = s.txState := (stage2_transmitter h2).txState.trans (stage1_transmitter run h1).txState
  have sampled : u2.net.fall = true → u2.txState = .idle → f.pdataI = g.pdataI := by
    intro fall idle
    rw [edge, Bool.and_eq_true, Bool.not_eq_true'] at fall
    exact data fall.1 fall.2 (state.symm.trans idle)
  refine alike_cons (stage3_alike same sampled) fun u3 _ => alike_runAll (fun op member u => ?_) u3
  simp only [List.mem_cons, List.not_mem_nil, or_false] at member
  rcases member with rfl | rfl | rfl
  · exact stage4_alike same code u
  · exact stage5_alike same u
  · exact stage6_alike same u

end Selection

/-! ## The cycle -/

/-- RESET reads `status_init` and no other port (70 rule R280). -/
theorem execInWord_of_rst {f : InWord} {s : State} (wf : s.variant.wf = true) (rst : f.rst = true) :
    execInWord f s = .next (endCycle (setStatus (loadMap s.variant f.statusInit) (resetRegisters (beginCycle f s)))) := by
  have stages : runStages (beginCycle f s) = .next _ := runStages_eq_next.mpr (.inl ⟨rst, execReset_of_rst rst⟩)
  rw [execInWord, if_pos wf, stages]
  rfl

theorem execInWord_of_run {f : InWord} {s : State} (wf : s.variant.wf = true) (run : f.rst = false)
    (inRange : insideSpec s = true) : execInWord f s
      = andThen (runAll [stage1, stage2, stage3, stage4, stage5, stage6] (beginCycle f s)) fun t => .next (endCycle t) := by
  have noReset : ¬(beginCycle f s).inp.rst = true := by simp [run]
  rw [execInWord, if_pos wf, runStages, if_neg noReset, insideSpec_beginCycle, if_pos inRange]

/-- Settles O58. The wires and the input levels are cleared at the cycle's end, so what is alike becomes equal. -/
theorem ignoredInputs : Obligations.IgnoredInputs := by
  intro s f g same
  obtain ⟨rst, resetPorts, runPorts⟩ := same
  rw [exec_inWord, exec_inWord]
  cases wf : s.variant.wf with
  | false => rw [execInWord_of_illFormed wf, execInWord_of_illFormed wf]
  | true =>
    cases reset : f.rst with
    | true =>
      rw [execInWord_of_rst wf reset, execInWord_of_rst wf (rst.symm.trans reset), resetPorts reset]
      rfl
    | false =>
      have run : g.rst = false := rst.symm.trans reset
      cases inRange : insideSpec s with
      | false => rw [execInWord_of_outside wf reset inRange, execInWord_of_outside wf run inRange]
      | true =>
        obtain ⟨pclk, cmdValid, dbgTraceEn, errClr, storeFail, code, data⟩ := runPorts reset
        have levels : SameLevels f g := ⟨rst, pclk, cmdValid, dbgTraceEn, errClr, storeFail⟩
        have alike := stages_alike (s := beginCycle f s) levels reset data code
        obtain ⟨r, left, right⟩ := alike
        have first : runAll [stage1, stage2, stage3, stage4, stage5, stage6] (beginCycle f s) = _ := left
        have second : runAll [stage1, stage2, stage3, stage4, stage5, stage6] (beginCycle g s) = _ := right
        rw [execInWord_of_run wf reset inRange, execInWord_of_run wf run inRange, first, second, andThen_assoc,
          andThen_assoc]
        rfl

end Sys2Proof.Machine
end

section
/-! SUPPORT. The states from which a cycle without reset completes (93 U3): every stage answers from them and keeps them. -/

namespace Sys2Proof.Machine

/-! ## The ranges of 93 U3 -/

/-- The state is none of those that 93 U3 excludes. -/
structure InRange (s : State) : Prop where
  ageLow : -1 ≤ s.age
  ageHigh : s.age ≤ s.variant.cap
  window : s.w.length ≤ s.variant.cap
  sending : s.txState ≠ .idle → s.txIdx < s.txb.length
  outside : s.txw = true → s.inside = false

theorem insideSpec_iff {s : State} : insideSpec s = true ↔ InRange s := by
  have ranges : insideSpec s = true ↔ -1 ≤ s.age ∧ s.age ≤ s.variant.cap ∧ s.w.length ≤ s.variant.cap
      ∧ (s.txState ≠ .idle → s.txIdx < s.txb.length) ∧ (s.txw = true → s.inside = false) := by
    simp [insideSpec, and_assoc, Decidable.imp_iff_not_or]
  exact ranges.trans ⟨fun ⟨low, high, window, sending, outside⟩ => ⟨low, high, window, sending, outside⟩,
    fun ⟨low, high, window, sending, outside⟩ => ⟨low, high, window, sending, outside⟩⟩

theorem InRange.of_frames {s t : State} (inRange : InRange s) (receiver : ReceiverFrame s t)
    (transmitter : TransmitterFrame s t) : InRange t where
  ageLow := by rw [receiver.age]; exact inRange.ageLow
  ageHigh := by rw [receiver.age, receiver.variant]; exact inRange.ageHigh
  window := by rw [receiver.w, receiver.variant]; exact inRange.window
  sending := by rw [transmitter.txState, transmitter.txIdx, transmitter.txb]; exact inRange.sending
  outside := by rw [receiver.txw, receiver.inside]; exact inRange.outside

/-! ## Stage 2 -/

theorem execDecode_next (s : State) : ∃ t, execDecode s = .next t := by
  unfold execDecode whenK
  split
  · refine runAll_next (fun f member u => ?_) _
    simp only [List.mem_cons, List.not_mem_nil, or_false] at member
    rcases member with rfl | rfl | rfl | rfl | rfl | rfl
    · exact whenJ_next ⟨_, rfl⟩
    · exact whenJ_next ⟨_, rfl⟩
    · exact whenJ_next ⟨_, rfl⟩
    · exact execZoneDecode_next u
    · exact execStatusDecode_next u
    · exact whenJ_next ⟨_, rfl⟩
  · exact ⟨s, rfl⟩

theorem stage2_next (s : State) : ∃ t, stage2 s = .next t := by
  unfold stage2
  split
  · exact execDecode_next s
  · exact ⟨s, rfl⟩

/-! ## Stage 3 -/

/-- FRAME_PUBLISH reads inside the window where the frame's length is not negative. -/
theorem execFramePublish_next {v : State} (counted : 0 ≤ v.age + v.variant.n) : ∃ t, execFramePublish v = .next t := by
  cases fires : firesK .framePublish v with
  | false => exact ⟨v, whenK_of_not_fires fires _⟩
  | true =>
    have fits : (KBit.fits, true) ∈ kPattern .framePublish := by decide
    have held : v.age + v.variant.n ≤ v.w.length := of_decide_eq_true (kBit_of_firesK fires fits)
    rw [execFramePublish, whenK_of_fires fires, if_neg (not_lt.mpr counted), memRead_tail (by omega)]
    exact ⟨_, rfl⟩

/-- An operation that is one update always answers. -/
theorem whenK_update_next (i : Instr) (s u : State) : ∃ t, whenK i s (.next u) = .next t := by
  unfold whenK
  split <;> exact ⟨_, rfl⟩

theorem execSample_next {s : State} (sampling : Sampling s) (low : -1 ≤ s.age) : ∃ t, execSample s = .next t := by
  have counted : 0 ≤ (sampled s).age + (sampled s).variant.n := by
    change 0 ≤ s.age + 1 + (s.variant.n : Int)
    omega
  obtain ⟨u, published⟩ := execFramePublish_next counted
  have others : ∀ f ∈ [execFrameDrop, execBoundaryToggle, execSyncRecover, execQuietDetect], ∀ v,
      ∃ t, f v = .next t := by
    intro f member v
    simp only [List.mem_cons, List.not_mem_nil, or_false] at member
    rcases member with rfl | rfl | rfl | rfl <;> exact whenK_update_next _ v _
  obtain ⟨t, rest⟩ := runAll_next others u
  refine ⟨t, ?_⟩
  rw [execSample, whenK_of_fires (firesK_sample_iff.mpr sampling)]
  change runAll ([execWinAppend, execAgeInc, execFlagMatch] ++ execFramePublish :: _) s = .next t
  rw [runAll_append, sampleParts_first sampling, andThen_next, runAll_cons, published, andThen_next, rest]

theorem stage3_next {s : State} (run : s.inp.rst = false) (low : -1 ≤ s.age) : ∃ t, stage3 s = .next t := by
  unfold stage3
  split
  · next fall =>
    split
    · next idle => exact execSample_next ⟨run, fall, idle⟩ low
    · exact whenK_update_next _ s _
  · exact ⟨s, rfl⟩

theorem execSample_inRange {s t : State} (sampling : Sampling s) (wf : s.variant.wf = true) (inRange : InRange s)
    (h : execSample s = .next t) : InRange t := by
  have idle : t.txState = .idle := by
    have frame : SamplerFrame s t := execSample_frame s t h
    rw [frame]
    exact sampling.idle
  obtain ⟨u, ends, rfl⟩ := execSample_end sampling h
  have counted : -1 ≤ (sampled s).age := by
    have low := inRange.ageLow
    change -1 ≤ s.age + 1
    omega
  obtain ⟨ageLow, ageHigh⟩ := ends.age counted
  exact
    { ageLow := ageLow
      ageHigh := by rw [setTxw_age, setTxw_variant, ends.variant]; exact ageHigh
      window := by
        rw [setTxw_w, setTxw_variant, ends.w, ends.variant]
        exact appendBit_length_le _ (cap_pos_of_wf wf) inRange.window
      sending := fun busy => absurd idle busy
      outside := fun window => by
        rw [setTxw_txw, Bool.and_eq_true, Bool.not_eq_true'] at window
        exact window.1 }

theorem stage3_inRange {s t : State} (run : s.inp.rst = false) (wf : s.variant.wf = true) (inRange : InRange s)
    (h : stage3 s = .next t) : InRange t := by
  unfold stage3 at h
  split at h
  · next fall =>
    split at h
    · next idle => exact execSample_inRange ⟨run, fall, idle⟩ wf inRange h
    · refine whenK_keeps inRange (fun answered => ?_) h
      cases answered
      exact ⟨inRange.ageLow, inRange.ageHigh, Nat.zero_le _, inRange.sending, nofun⟩
  · cases h
    exact inRange

/-! ## Stage 5 -/

/-- TX_DRIVE reads inside the transmit buffer where `tx_idx` is below `tx_len`. -/
theorem stage5_next {s : State} (run : s.inp.rst = false) (sending : s.txState ≠ .idle → s.txIdx < s.txb.length) :
    ∃ t, stage5 s = .next t := by
  cases state : s.txState with
  | idle => exact ⟨_, stage5_idle run state⟩
  | waitLow =>
    obtain ⟨b, bit⟩ := memBit_isSome (sending (by simp [state]))
    rw [stage5_waitLow run state, bit]
    split <;> exact ⟨_, rfl⟩
  | waitHigh => exact ⟨_, stage5_waitHigh run state⟩

theorem stage5_inRange {s t : State} (run : s.inp.rst = false) (inRange : InRange s) (h : stage5 s = .next t) :
    InRange t := by
  have receiver := stage5_receiver run h
  have sending : t.txState ≠ .idle → t.txIdx < t.txb.length := by
    cases stage5_end run h with
    | rests | waits | windowTimeout | stalls => exact inRange.sending
    | drives low => exact fun _ => inRange.sending (by simp [low])
    | loads => exact fun _ => by simp [txBuild]
    | advances high more =>
      have inBuffer := inRange.sending (by simp [high])
      exact fun _ => by rw [advanceTx_txIdx, advanceTx_txb]; omega
    | releases | clockTimeout => exact fun busy => absurd rfl busy
  exact
    { ageLow := by rw [receiver.age]; exact inRange.ageLow
      ageHigh := by rw [receiver.age, receiver.variant]; exact inRange.ageHigh
      window := by rw [receiver.w, receiver.variant]; exact inRange.window
      sending := sending
      outside := by rw [receiver.txw, receiver.inside]; exact inRange.outside }

/-! ## The cycle -/

/-- Stage after stage answers, and leaves the ranges for the next one. -/
theorem stages_next {s : State} (run : s.inp.rst = false) (wf : s.variant.wf = true) (inRange : InRange s) :
    ∃ t, runAll [stage1, stage2, stage3, stage4, stage5, stage6] s = .next t ∧ InRange t := by
  obtain ⟨u1, h1⟩ : ∃ t, stage1 s = .next t := ⟨_, stage1_eq run⟩
  have receiver1 := stage1_receiver run h1
  have range1 := inRange.of_frames receiver1 (stage1_transmitter run h1)
  obtain ⟨u2, h2⟩ := stage2_next u1
  have receiver2 := receiver1.trans (stage2_receiver h2)
  have range2 := range1.of_frames (stage2_receiver h2) (stage2_transmitter h2)
  have run2 : u2.inp.rst = false := by rw [receiver2.inp, run]
  obtain ⟨u3, h3⟩ := stage3_next run2 range2.ageLow
  have range3 := stage3_inRange run2 (receiver2.variant ▸ wf) range2 h3
  have run3 : u3.inp.rst = false := by rw [(stage3_frame h3).inp, run2]
  obtain ⟨u4, h4⟩ : ∃ t, stage4 u3 = .next t := ⟨_, stage4_eq run3⟩
  have range4 := range3.of_frames (stage4_receiver run3 h4) (stage4_transmitter run3 h4)
  have run4 : u4.inp.rst = false := by rw [(stage4_receiver run3 h4).inp, run3]
  obtain ⟨u5, h5⟩ := stage5_next run4 range4.sending
  have range5 := stage5_inRange run4 range4 h5
  have run5 : u5.inp.rst = false := by rw [(stage5_receiver run4 h5).inp, run4]
  obtain ⟨u6, h6⟩ : ∃ t, stage6 u5 = .next t := ⟨_, stage6_eq run5⟩
  refine ⟨u6, ?_, range5.of_frames (stage6_receiver run5 h6) (stage6_transmitter run5 h6)⟩
  simp only [runAll_cons, runAll_nil, h1, h2, h3, h4, h5, h6, andThen_next]

/-- From the ranges of 93 U3 a cycle without reset completes, and stays inside them. -/
theorem execInWord_next {f : InWord} {s : State} (wf : s.variant.wf = true) (run : f.rst = false) (inRange : InRange s) :
    ∃ t, execInWord f s = .next t ∧ InRange t := by
  have begun : InRange (beginCycle f s) :=
    ⟨inRange.ageLow, inRange.ageHigh, inRange.window, inRange.sending, inRange.outside⟩
  obtain ⟨u, stages, ⟨ageLow, ageHigh, window, sending, outside⟩⟩ := stages_next (s := beginCycle f s) run wf begun
  refine ⟨endCycle u, ?_, ⟨ageLow, ageHigh, window, sending, outside⟩⟩
  rw [execInWord_of_run wf run (insideSpec_iff.mpr inRange), stages, andThen_next]

/-- No cycle touches the stimulus still to come. -/
theorem execInWord_stimulus {f : InWord} {s t : State} (h : execInWord f s = .next t) :
    t.stim = s.stim ∧ t.drawn = s.drawn := by
  rcases execInWord_cases h with ⟨-, rfl⟩ | ⟨-, -, before, after, start, sampled, finish⟩
  · exact ⟨rfl, rfl⟩
  · have frame : SamplerFrame before after := stage3_frame sampled
    have between : after.stim = before.stim ∧ after.drawn = before.drawn := by
      rw [frame]
      exact ⟨rfl, rfl⟩
    exact ⟨finish.stim.trans (between.1.trans start.stim), finish.drawn.trans (between.2.trans start.drawn)⟩

/-- A stimulus without reset completes from the ranges of 93 U3. -/
theorem runWords_next {ws : List InWord} (run : ∀ f ∈ ws, f.rst = false) {s : State} (wf : s.variant.wf = true)
    (inRange : InRange s) : ∃ t, runWords ws s = .next t ∧ InRange t ∧ t.variant = s.variant ∧ t.stim = s.stim
      ∧ t.drawn = s.drawn := by
  induction ws generalizing s with
  | nil => exact ⟨s, rfl, inRange, rfl, rfl, rfl⟩
  | cons f ws ih =>
    obtain ⟨u, first, range⟩ := execInWord_next wf (run f List.mem_cons_self) inRange
    have variant := execInWord_variant first
    obtain ⟨stim, drawn⟩ := execInWord_stimulus first
    obtain ⟨t, rest, ranges, variants, stims, draws⟩ :=
      ih (fun g member => run g (List.mem_cons_of_mem _ member)) (variant ▸ wf) range
    refine ⟨t, ?_, ranges, variants.trans variant, stims.trans stim, draws.trans drawn⟩
    rw [runWords, List.map_cons, runAll_cons, first]
    exact rest

end Sys2Proof.Machine
end

section
/-! SUPPORT. Bits received while nothing is transmitted (30 rules R82, R83, R104): what a cycle leaves of the command and
transmitter registers, the one sample in the four cycles of a bit, and the window after a sequence of bits. -/

namespace Sys2Proof.Machine

/-! ## What a cycle without a command leaves at rest -/

/-- `t` has the command and transmitter registers of `s`. -/
structure CommandFrame (s t : State) : Prop where
  cpValid : t.cpValid = s.cpValid
  cpCode : t.cpCode = s.cpCode
  txState : t.txState = s.txState
  txIdx : t.txIdx = s.txIdx
  txb : t.txb = s.txb
  ctCnt : t.ctCnt = s.ctCnt
  wtCnt : t.wtCnt = s.wtCnt
  pdataO : t.pdataO = s.pdataO
  pdataOe : t.pdataOe = s.pdataOe

theorem CommandFrame.refl (s : State) : CommandFrame s s := ⟨rfl, rfl, rfl, rfl, rfl, rfl, rfl, rfl, rfl⟩

theorem CommandFrame.trans {s t u : State} (first : CommandFrame s t) (second : CommandFrame t u) : CommandFrame s u where
  cpValid := second.cpValid.trans first.cpValid
  cpCode := second.cpCode.trans first.cpCode
  txState := second.txState.trans first.txState
  txIdx := second.txIdx.trans first.txIdx
  txb := second.txb.trans first.txb
  ctCnt := second.ctCnt.trans first.ctCnt
  wtCnt := second.wtCnt.trans first.wtCnt
  pdataO := second.pdataO.trans first.pdataO
  pdataOe := second.pdataOe.trans first.pdataOe

/-- The transmitter is idle and no command is pending. -/
structure Resting (s : State) : Prop where
  idle : s.txState = .idle
  empty : s.cpValid = false

theorem Resting.of_frame {s t : State} (resting : Resting s) (frame : CommandFrame s t) : Resting t :=
  ⟨frame.txState.trans resting.idle, frame.cpValid.trans resting.empty⟩

theorem DecoderFrame.command {s t : State} (frame : DecoderFrame s t) : CommandFrame s t ∧ t.pclkQ = s.pclkQ := by
  rw [frame]
  exact ⟨⟨rfl, rfl, rfl, rfl, rfl, rfl, rfl, rfl, rfl⟩, rfl⟩

theorem SamplerFrame.command {s t : State} (frame : SamplerFrame s t) : CommandFrame s t ∧ t.pclkQ = s.pclkQ := by
  rw [frame]
  exact ⟨⟨rfl, rfl, rfl, rfl, rfl, rfl, rfl, rfl, rfl⟩, rfl⟩

theorem stage1_command {s t : State} (run : s.inp.rst = false) (h : stage1 s = .next t) :
    CommandFrame s t ∧ t.pclkQ = s.inp.pclk := by
  rw [stage1_eq run] at h
  cases h
  split <;> exact ⟨⟨rfl, rfl, rfl, rfl, rfl, rfl, rfl, rfl, rfl⟩, rfl⟩

theorem stage4_of_unasked {s : State} (run : s.inp.rst = false) (unasked : s.inp.cmdValid = false) :
    stage4 s = .next s := by
  simp [stage4_eq run, unasked]

theorem stage5_of_resting {s : State} (run : s.inp.rst = false) (resting : Resting s) : stage5 s = .next s := by
  simp [stage5_idle run resting.idle, resting.empty]

theorem stage6_command {s t : State} (run : s.inp.rst = false) (h : stage6 s = .next t) :
    CommandFrame s t ∧ t.pclkQ = s.pclkQ := by
  rw [stage6_eq run] at h
  cases h
  split <;> exact ⟨⟨rfl, rfl, rfl, rfl, rfl, rfl, rfl, rfl, rfl⟩, rfl⟩

/-- A cycle that receives: neither reset nor a command, and nothing is transmitted. -/
structure Receiving (f : InWord) (s : State) : Prop where
  run : f.rst = false
  unasked : f.cmdValid = false
  resting : Resting s

/-- A receiving cycle keeps the command side, takes over the clock level, and runs stage 3 on the receiver it found. -/
theorem execInWord_receiving {f : InWord} {s t : State} (receiving : Receiving f s) (h : execInWord f s = .next t) :
    CommandFrame s t ∧ t.pclkQ = f.pclk ∧ ∃ before after,
      (ReceiverFrame (beginCycle f s) before ∧ before.txState = .idle ∧ before.net.fall = (s.pclkQ && !f.pclk))
      ∧ stage3 before = .next after ∧ ReceiverFrame (endCycle after) t := by
  obtain ⟨run, unasked, resting⟩ := receiving
  obtain ⟨u, stages, rfl⟩ := execInWord_stages run h
  obtain ⟨u1, u2, u3, u4, u5, ⟨h1, h2, h3, h4, h5, h6⟩, inp1, inp2, inp3, inp4, inp5⟩ := stages_chain run stages
  have run3 : u3.inp.rst = false := by rw [inp3]; exact run
  obtain ⟨command1, clock1⟩ := stage1_command run h1
  obtain ⟨command2, clock2⟩ := DecoderFrame.command (stage2_frame h2)
  obtain ⟨command3, clock3⟩ := SamplerFrame.command (stage3_frame h3)
  have begun : Resting (beginCycle f s) := ⟨resting.idle, resting.empty⟩
  have before : Resting u2 := begun.of_frame (command1.trans command2)
  rw [stage4_of_unasked run3 (by rw [inp3]; exact unasked)] at h4
  cases h4
  rw [stage5_of_resting run3 (before.of_frame command3)] at h5
  cases h5
  obtain ⟨command6, clock6⟩ := stage6_command run3 h6
  obtain ⟨cpValid, cpCode, txState, txIdx, txb, ctCnt, wtCnt, pdataO, pdataOe⟩ :=
    command1.trans (command2.trans (command3.trans command6))
  have finish := stage6_receiver run3 h6
  exact ⟨⟨cpValid, cpCode, txState, txIdx, txb, ctCnt, wtCnt, pdataO, pdataOe⟩,
    clock6.trans (clock3.trans (clock2.trans clock1)), u2, u3,
    ⟨(stage1_receiver run h1).trans (stage2_receiver h2), before.idle, stage2_fall run h1 h2⟩, h3,
    ⟨finish.variant, finish.stim, finish.drawn, rfl, finish.w, finish.inside, finish.age, finish.txw⟩⟩

/-- Where FLAG_MATCH sees the flag the boundary toggles and the age starts again (41 rule R134). -/
theorem execSample_window {s t : State} (sampling : Sampling s) (h : execSample s = .next t) :
    t.w = appendBit s.variant.cap s.w s.inp.pdataI ∧ (flagAtTail s.variant t.w = true → t.age = 0) := by
  obtain ⟨u, ends, rfl⟩ := execSample_end sampling h
  have window : u.w = appendBit s.variant.cap s.w s.inp.pdataI := ends.w
  refine ⟨window, fun flag => ?_⟩
  have hit : (sampled s).net.hit = true := by
    rw [setTxw_w, window] at flag
    exact flag
  cases ends with
  | published | dropped | opened => rfl
  | lost miss => exact absurd (hit.symm.trans miss) (by decide)
  | counted miss => exact absurd (hit.symm.trans miss) (by decide)

/-- A receiving cycle at a falling edge samples the data line. -/
theorem execInWord_sample {f : InWord} {s t : State} (receiving : Receiving f s) (high : s.pclkQ = true)
    (low : f.pclk = false) (h : execInWord f s = .next t) :
    t.w = appendBit s.variant.cap s.w f.pdataI ∧ (flagAtTail s.variant t.w = true → t.age = 0) := by
  obtain ⟨-, -, before, after, ⟨start, idle, edge⟩, sampled, finish⟩ := execInWord_receiving receiving h
  have run : before.inp.rst = false := by rw [start.inp]; exact receiving.run
  have fall : before.net.fall = true := by simp [edge, high, low]
  rw [stage3, if_pos fall, if_pos idle] at sampled
  have sample := execSample_window ⟨run, fall, idle⟩ sampled
  rw [start.variant, start.w, start.inp] at sample
  rw [finish.w, finish.age]
  exact sample

/-! ## The four cycles of a bit -/

/-- `t` is `s` after the bits `b` were received: the window holds the last `C` of its bits and these. -/
structure Received (s : State) (b : Bits) (t : State) : Prop where
  variant : t.variant = s.variant
  command : CommandFrame s t
  window : t.w = tailBits (s.w ++ b) s.variant.cap

theorem tailBits_tailBits_append (a b : Bits) (n : Nat) : tailBits (tailBits a n ++ b) n = tailBits (a ++ b) n := by
  have skipped : a.length - n + ((tailBits a n ++ b).length - n) = (a ++ b).length - n := by
    simp only [tailBits, List.length_append, List.length_drop]
    omega
  have cut : tailBits a n ++ b = (a ++ b).drop (a.length - n) := (List.drop_append_of_le_length (Nat.sub_le _ _)).symm
  rw [tailBits, cut, List.drop_drop, ← cut, skipped, ← tailBits]

theorem Received.refl {s : State} (fits : s.w.length ≤ s.variant.cap) : Received s [] s where
  variant := rfl
  command := .refl s
  window := by rw [List.append_nil, tailBits, Nat.sub_eq_zero_of_le fits, List.drop_zero]

theorem Received.trans {s t u : State} {a b : Bits} (first : Received s a t) (second : Received t b u) :
    Received s (a ++ b) u where
  variant := second.variant.trans first.variant
  command := first.command.trans second.command
  window := by rw [second.window, first.window, first.variant, tailBits_tailBits_append, List.append_assoc]

/-- The words of a bit ask for nothing but the clock and data levels. -/
theorem bitsWords_quiet (b : Bits) : ∀ f ∈ bitsWords b, f.rst = false ∧ f.cmdValid = false := by
  intro f member
  obtain ⟨d, -, word⟩ := List.mem_flatMap.mp member
  simp only [bitWords, List.mem_cons, List.not_mem_nil, or_false] at word
  rcases word with rfl | rfl | rfl | rfl <;> exact ⟨rfl, rfl⟩

/-- A bit is sampled in the third of its cycles, where the clock falls, and only there. -/
theorem runWords_bitWords {d : Bool} {s t : State} (wf : s.variant.wf = true) (fits : s.w.length ≤ s.variant.cap)
    (resting : Resting s) (h : runWords (bitWords d) s = .next t) :
    Received s [d] t ∧ t.pclkQ = false ∧ (flagAtTail s.variant t.w = true → t.age = 0) := by
  simp only [runWords, bitWords, List.map_cons, List.map_nil, runAll_cons, runAll_nil, andThen_eq_next] at h
  obtain ⟨u1, h1, u2, h2, u3, h3, u4, h4, ⟨⟩⟩ := h
  obtain ⟨command1, clock1, -⟩ := execInWord_receiving ⟨rfl, rfl, resting⟩ h1
  have resting1 := resting.of_frame command1
  obtain ⟨command2, clock2, -⟩ := execInWord_receiving ⟨rfl, rfl, resting1⟩ h2
  have resting2 := resting1.of_frame command2
  obtain ⟨command3, clock3, -⟩ := execInWord_receiving ⟨rfl, rfl, resting2⟩ h3
  have resting3 := resting2.of_frame command3
  obtain ⟨command4, clock4, -⟩ := execInWord_receiving ⟨rfl, rfl, resting3⟩ h4
  obtain ⟨window1, -⟩ := execInWord_receiver_of_no_fall rfl h1 (by simp)
  obtain ⟨window2, -⟩ := execInWord_receiver_of_no_fall rfl h2 (by simp)
  obtain ⟨window3, flag⟩ := execInWord_sample ⟨rfl, rfl, resting2⟩ clock2 rfl h3
  obtain ⟨window4, -, age4, -⟩ := execInWord_receiver_of_no_fall rfl h4 (by simp [clock3])
  have variant2 : u2.variant = s.variant := (execInWord_variant h2).trans (execInWord_variant h1)
  have window : t.w = appendBit s.variant.cap s.w d := by rw [window4, window3, variant2, window2, window1]
  refine ⟨⟨?_, command1.trans (command2.trans (command3.trans command4)), ?_⟩, clock4, fun seen => ?_⟩
  · rw [execInWord_variant h4, execInWord_variant h3, variant2]
  · rw [window, appendBit_eq_drop d fits (cap_pos_of_wf wf), tailBits, List.length_append, List.length_singleton]
  · rw [age4]
    exact flag (by rw [variant2, ← window4]; exact seen)

/-- Bit after bit is received; the last one leaves the clock low and, with a flag at the window's end, the age 0. -/
theorem runWords_bitsWords {b : Bits} {s t : State} (wf : s.variant.wf = true) (fits : s.w.length ≤ s.variant.cap)
    (resting : Resting s) (h : runWords (bitsWords b) s = .next t) :
    Received s b t ∧ (b ≠ [] → t.pclkQ = false ∧ (flagAtTail s.variant t.w = true → t.age = 0)) := by
  induction b generalizing s with
  | nil =>
    cases h
    exact ⟨.refl fits, fun nonempty => absurd rfl nonempty⟩
  | cons d b ih =>
    rw [bitsWords_cons, runWords_append, andThen_eq_next] at h
    obtain ⟨u, first, rest⟩ := h
    obtain ⟨received, clock, flag⟩ := runWords_bitWords wf fits resting first
    have held : u.w.length ≤ u.variant.cap := by
      rw [received.window, received.variant, tailBits, List.length_drop]
      omega
    obtain ⟨others, last⟩ := ih (received.variant ▸ wf) held (resting.of_frame received.command) rest
    refine ⟨received.trans others, fun _ => ?_⟩
    cases b with
    | nil =>
      cases rest
      exact ⟨clock, flag⟩
    | cons d' b' =>
      rw [received.variant] at last
      exact last (List.cons_ne_nil d' b')

/-! ## FLAG and RAW_FRAME -/

theorem flag_length_of_wf {v : Variant} (wf : v.wf = true) : 1 ≤ v.flag.length ∧ v.flag.length ≤ v.cap := by
  simp only [Variant.wf, Variant.n, Bool.and_eq_true, decide_eq_true_eq] at wf
  omega

/-- Bits that end in the flag leave it at the window's end, which is at least as long (00 rule R10). -/
theorem flagAtTail_of_suffix {v : Variant} (wf : v.wf = true) {bits w : Bits} (suffix : v.flag <:+ bits) :
    flagAtTail v (tailBits (w ++ bits) v.cap) = true := by
  obtain ⟨-, fits⟩ := flag_length_of_wf wf
  have whole : v.flag <:+ w ++ bits := suffix.trans (List.suffix_append w bits)
  have long : v.flag.length ≤ (tailBits (w ++ bits) v.cap).length := by
    have bound := whole.length_le
    rw [tailBits, List.length_drop]
    omega
  have ends : v.flag <:+ tailBits (w ++ bits) v.cap := List.suffix_of_suffix_length_le whole (List.drop_suffix _ _) long
  exact flagAtTail_iff.mpr ⟨long, (List.suffix_iff_eq_drop.mp ends).symm⟩

/-- Settles O42: both rows run the stimulus of their bits, which completes, and at rest every bit reaches the window. -/
theorem wireFormatsResult : Obligations.WireFormatsResult := by
  intro s p bits i row wf inSpec
  have inRange := insideSpec_iff.mp inSpec
  have stimulus : exec i s = runWords (bitsWords bits) s ∧ bits ≠ [] := by
    rcases row with ⟨rfl, rfl⟩ | ⟨rfl, rfl⟩
    · exact ⟨exec_flagVRef s, List.cons_ne_nil _ _⟩
    · have flag : s.variant.flag ≠ [] := List.ne_nil_of_length_pos (flag_length_of_wf wf).1
      exact ⟨exec_rawFrame p s, by simp [flag]⟩
  obtain ⟨meaning, nonempty⟩ := stimulus
  obtain ⟨t, answered, range, variant, stim, drawn⟩ :=
    runWords_next (fun f member => (bitsWords_quiet bits f member).1) wf inRange
  refine ⟨t, meaning.trans answered, insideSpec_iff.mpr range, variant, stim, drawn, fun idle empty => ?_⟩
  obtain ⟨received, last⟩ := runWords_bitsWords wf inRange.window ⟨idle, empty⟩ answered
  obtain ⟨clock, flag⟩ := last nonempty
  have command := received.command
  refine ⟨?_, fun suffix => flag ?_, clock, command.cpValid.trans empty, command.cpCode, command.txState.trans idle,
    command.txIdx, command.txb, command.ctCnt, command.wtCnt, command.pdataO, command.pdataOe⟩
  · rw [received.window, tailBits, List.length_append]
  · rw [received.window]
    exact flagAtTail_of_suffix wf suffix

end Sys2Proof.Machine
end

section
/-! SUPPORT. The sampler's operations as their updates (40 rules R110 to R116, 41 rule R130): the whole next state of SAMPLE, of
the parts that every sample takes, and of the two operations beside it. -/

namespace Sys2Proof.Machine

/-! ## Arms of the dispatch -/

theorem exec_edgeDetect (s : State) : exec .edgeDetect s = execEdgeDetect s := rfl
theorem exec_sample (s : State) : exec .sample s = execSample s := rfl
theorem exec_sampleSuspend (s : State) : exec .sampleSuspend s = execSampleSuspend s := rfl
theorem exec_winAppend (s : State) : exec .winAppend s = execWinAppend s := rfl

/-! ## SAMPLE -/

/-- The state in which the boundary detector leaves `v`, field by field (41 rules R132 to R135). -/
def boundaryUpdate (v : State) : State :=
  let closes := v.net.hit && v.inside
  let fits := decide (v.age + v.variant.n ≤ v.w.length)
  let lost := !v.net.hit && decide ((v.variant.cap : Int) < v.age)
  { v with
    age := if v.net.hit then 0 else if lost then -1 else v.age
    inside := if v.net.hit then !v.inside else v.inside && !lost
    fs := if closes && fits then tailBits v.w (v.age + v.variant.n).toNat else v.fs
    fsValid := v.fsValid || closes && fits
    err := if closes && !fits then v.err ||| 0b1000#4 else v.err }

/-- Each of the boundary detector's five ends is the one update: the wire of FLAG_MATCH, `inside`, FITS and OVF say which. -/
theorem BoundaryEnd.eq_boundaryUpdate {v u : State} (ends : BoundaryEnd v u) : u = boundaryUpdate v := by
  cases ends with
  | published hit inside _ fits => simp [boundaryUpdate, toggleBoundary, publishFrame, hit, inside, fits]
  | dropped hit inside long => simp [boundaryUpdate, toggleBoundary, setErr, hit, inside, not_le.mpr long]
  | opened hit outside => simp [boundaryUpdate, toggleBoundary, hit, outside]
  | lost miss old => simp [boundaryUpdate, miss, old]
  | counted miss recent => simp [boundaryUpdate, miss, not_lt.mpr recent]

/-- SAMPLE's parts in their order: the three that every sample takes, the boundary detector, QUIET_DETECT. -/
theorem execSample_eq {s : State} (sampling : Sampling s) (low : -1 ≤ s.age) :
    execSample s = .next
      (let u := boundaryUpdate (sampled s)
       setTxw (!u.inside && quietAtTail u.variant u.w) u) := by
  obtain ⟨t, answered⟩ := execSample_next sampling low
  obtain ⟨u, ends, rfl⟩ := execSample_end sampling answered
  rw [answered, ends.eq_boundaryUpdate]

/-- Settles O18. -/
theorem sampleResult : Obligations.SampleResult := by
  intro s run fall idle low
  exact (exec_sample s).trans (execSample_eq ⟨run, fall, idle⟩ low)

/-! ## EDGE_DETECT, WIN_APPEND and SAMPLE_SUSPEND -/

theorem execEdgeDetect_of_run {s : State} (run : s.inp.rst = false) : execEdgeDetect s = .next (setEdge s) :=
  whenK_of_fires (by simp [firesK, kPattern, kBit, run]) _

theorem execWinAppend_of_sampling {s : State} (sampling : Sampling s) : execWinAppend s = .next (appendSample s) := by
  obtain ⟨run, fall, idle⟩ := sampling
  exact whenK_of_fires (by simp [firesK, kPattern, kBit, run, fall, idle]) _

theorem execSampleSuspend_of_sending {s : State} (run : s.inp.rst = false) (fall : s.net.fall = true)
    (sending : s.txState ≠ .idle) : execSampleSuspend s = .next (suspendSampler s) :=
  whenK_of_fires (by simp [firesK, kPattern, kBit, run, fall, sending]) _

/-- Settles O11: the model's wire is the Boolean form of the rule's test. -/
theorem edgeDetectResult : Obligations.EdgeDetectResult := by
  intro s run
  have edge : decide (s.pclkQ = true ∧ s.inp.pclk = false) = (s.pclkQ && !s.inp.pclk) := by
    cases s.pclkQ <;> simp
  rw [exec_edgeDetect, execEdgeDetect_of_run run, edge, setEdge]

/-- Settles O12. -/
theorem winAppendAndAgeIncResult : Obligations.WinAppendAndAgeIncResult := by
  intro s run fall idle
  exact ⟨(exec_winAppend s).trans (execWinAppend_of_sampling ⟨run, fall, idle⟩),
    (exec_ageInc s).trans (execAgeInc_of_sample run fall idle)⟩

/-- Settles O19. -/
theorem sampleSuspendResult : Obligations.SampleSuspendResult := by
  intro s run fall sending
  exact (exec_sampleSuspend s).trans (execSampleSuspend_of_sending run fall sending)

end Sys2Proof.Machine
end

section
/-! SUPPORT. The boundary detector's operations one by one (41 rules R131 to R136): a sample that is taken selects each of them
by the rest of its pattern, and the two tests read the window's tail bit by bit. -/

namespace Sys2Proof.Machine

/-! ## Arms of the dispatch -/

theorem exec_flagMatch (s : State) : exec .flagMatch s = execFlagMatch s := rfl
theorem exec_frameDrop (s : State) : exec .frameDrop s = execFrameDrop s := rfl
theorem exec_boundaryToggle (s : State) : exec .boundaryToggle s = execBoundaryToggle s := rfl
theorem exec_syncRecover (s : State) : exec .syncRecover s = execSyncRecover s := rfl
theorem exec_quietDetect (s : State) : exec .quietDetect s = execQuietDetect s := rfl

/-! ## The tests bit by bit -/

/-- The window's tail is the bits `b` exactly if it is so index by index. -/
theorem tailBits_eq_iff {w b : Bits} (fits : b.length ≤ w.length) :
    tailBits w b.length = b ↔ ∀ j, j < b.length → w[w.length - b.length + j]? = b[j]? := by
  rw [List.ext_getElem?_iff', tailBits_length fits, max_self]
  simp only [tailBits, List.getElem?_drop]

/-- 41 rule R131's test, index by index. -/
theorem flagAtTail_iff_getElem? {v : Variant} {w : Bits} :
    flagAtTail v w = true ↔ v.n ≤ w.length ∧ ∀ j, j < v.n → w[w.length - v.n + j]? = v.flag[j]? :=
  flagAtTail_iff.trans (and_congr_right tailBits_eq_iff)

/-- 41 rule R136's test as a comparison of the tail with `Q` ones. -/
theorem quietAtTail_iff {v : Variant} {w : Bits} :
    quietAtTail v w = true ↔ v.quiet ≤ w.length ∧ tailBits w v.quiet = List.replicate v.quiet true := by
  simp only [quietAtTail, Bool.and_eq_true, decide_eq_true_eq, List.all_eq_true, id_eq]
  refine and_congr_right fun fits => ?_
  rw [List.eq_replicate_iff, tailBits_length fits]
  exact (and_iff_right rfl).symm

/-- 41 rule R136's test, bit by bit from the newest sample back. -/
theorem quietAtTail_iff_getElem? {v : Variant} {w : Bits} :
    quietAtTail v w = true ↔ v.quiet ≤ w.length ∧ ∀ k, k < v.quiet → w[w.length - 1 - k]? = some true := by
  refine quietAtTail_iff.trans (and_congr_right fun fits => ?_)
  have forward : tailBits w v.quiet = List.replicate v.quiet true
      ↔ ∀ j, j < v.quiet → w[w.length - v.quiet + j]? = (List.replicate v.quiet true)[j]? := by
    simpa only [List.length_replicate] using tailBits_eq_iff (b := List.replicate v.quiet true) (by simpa using fits)
  rw [forward]
  constructor
  · intro ones k lt
    have bit := ones (v.quiet - 1 - k) (by omega)
    have mirrored : w.length - v.quiet + (v.quiet - 1 - k) = w.length - 1 - k := by omega
    rwa [mirrored, List.getElem?_replicate_of_lt (by omega)] at bit
  · intro ones j lt
    have bit := ones (v.quiet - 1 - j) (by omega)
    have mirrored : w.length - 1 - (v.quiet - 1 - j) = w.length - v.quiet + j := by omega
    rw [List.getElem?_replicate_of_lt lt, ← mirrored, bit]

/-! ## The operations where a sample is taken -/

/-- A row that asks for a taken sample and for `rest` is selected where a sample is taken and `rest` holds. -/
theorem firesK_of_sampling {i : Instr} {s : State} {rest : List (KBit × Bool)} (sampling : Sampling s)
    (pattern : kPattern i = (.rst, false) :: (.fall, true) :: (.txa, false) :: rest)
    (others : ∀ p ∈ rest, kBit s p.1 = p.2) : firesK i s = true := by
  obtain ⟨run, fall, idle⟩ := sampling
  simpa [firesK, pattern, kBit, run, fall, idle] using others

theorem execFlagMatch_of_sampling {s : State} (sampling : Sampling s) :
    execFlagMatch s = .next (setHit (flagAtTail s.variant s.w) s) :=
  whenK_of_fires (firesK_of_sampling sampling rfl (by simp)) _

theorem execFrameDrop_of_closing {s : State} (sampling : Sampling s) (hit : s.net.hit = true) (inside : s.inside = true)
    (long : s.w.length < s.age + s.variant.n) : execFrameDrop s = .next (raise .oversizeFrame s) :=
  whenK_of_fires (firesK_of_sampling sampling rfl (by simp [kBit, hit, inside, long])) _

theorem execBoundaryToggle_of_hit {s : State} (sampling : Sampling s) (hit : s.net.hit = true) :
    execBoundaryToggle s = .next (toggleBoundary s) :=
  whenK_of_fires (firesK_of_sampling sampling rfl (by simp [kBit, hit])) _

theorem execSyncRecover_of_miss {s : State} (sampling : Sampling s) (miss : s.net.hit = false)
    (old : s.variant.cap < s.age) : execSyncRecover s = .next (raise .lostSync s) :=
  whenK_of_fires (firesK_of_sampling sampling rfl (by simp [kBit, miss, old])) _

/-! ## The statements -/

/-- Settles O13. -/
theorem flagMatchResult : Obligations.FlagMatchResult := by
  intro s run fall idle
  exact ⟨flagAtTail s.variant s.w, (exec_flagMatch s).trans (execFlagMatch_of_sampling ⟨run, fall, idle⟩),
    flagAtTail_iff_getElem?⟩

/-- Settles O17. -/
theorem quietDetectResult : Obligations.QuietDetectResult := by
  intro s run fall idle
  refine ⟨!s.inside && quietAtTail s.variant s.w,
    (exec_quietDetect s).trans (execQuietDetect_of_sampling ⟨run, fall, idle⟩), ?_⟩
  rw [Bool.and_eq_true, Bool.not_eq_true', quietAtTail_iff_getElem?]

/-- Settles O14: the frame's length is a number of bits that the window holds, so the read is the window's tail. -/
theorem framePublishResult : Obligations.FramePublishResult := by
  intro s l run fall idle hit inside long fits
  have held : s.age + s.variant.n ≤ s.w.length := by omega
  refine ⟨?_, tailBits_length fits⟩
  rw [exec_framePublish, execFramePublish_of_closing ⟨run, fall, idle⟩ hit inside held, if_neg (by omega), long,
    Int.toNat_natCast]
  rfl

/-- Settles O15. -/
theorem frameDropResult : Obligations.FrameDropResult := by
  intro s run fall idle hit inside long
  exact (exec_frameDrop s).trans (execFrameDrop_of_closing ⟨run, fall, idle⟩ hit inside long)

/-- Settles O16. -/
theorem toggleAndRecoverResult : Obligations.ToggleAndRecoverResult := by
  intro s run fall idle
  have sampling : Sampling s := ⟨run, fall, idle⟩
  exact ⟨fun hit => (exec_boundaryToggle s).trans (execBoundaryToggle_of_hit sampling hit),
    fun miss old => (exec_syncRecover s).trans (execSyncRecover_of_miss sampling miss old)⟩

end Sys2Proof.Machine
end

section
/-! SUPPORT. The stuffing engine (42 rules R150 to R153): one equation per kind of bit for its two functions, their loops as the
rules write them, what stuffing adds and where its runs of ones end, and destuffing as its inverse. -/

namespace Sys2Proof.Machine

/-! ## Arms of the dispatch -/

theorem exec_destuff (s : State) : exec .destuff s = execDestuff s := rfl
theorem exec_stuff (x : Bits) (s : State) : exec (.stuff x) s = execStuff x s := rfl

/-! ## One bit of DESTUFF and of STUFF -/

@[simp] theorem destuffFrom_nil (s run : Nat) : destuffFrom s run [] = [] := rfl

@[simp] theorem destuffFrom_true (s run : Nat) (f : Bits) :
    destuffFrom s run (true :: f) = true :: destuffFrom s (run + 1) f := rfl

/-- A 0 after `s` ones is the one that the stuffer put in. -/
theorem destuffFrom_false_of_full {s run : Nat} (full : run = s) (f : Bits) :
    destuffFrom s run (false :: f) = destuffFrom s 0 f := if_pos full

theorem destuffFrom_false_of_ne {s run : Nat} (other : run ≠ s) (f : Bits) :
    destuffFrom s run (false :: f) = false :: destuffFrom s 0 f := if_neg other

@[simp] theorem stuffFrom_nil (s run : Nat) : stuffFrom s run [] = [] := rfl

@[simp] theorem stuffFrom_false (s run : Nat) (x : Bits) : stuffFrom s run (false :: x) = false :: stuffFrom s 0 x := rfl

/-- The 1 that makes a run of `s` is sent with a 0 behind it. -/
theorem stuffFrom_true_of_full {s run : Nat} (last : run + 1 = s) (x : Bits) :
    stuffFrom s run (true :: x) = true :: false :: stuffFrom s 0 x := if_pos last

theorem stuffFrom_true_of_ne {s run : Nat} (more : run + 1 ≠ s) (x : Bits) :
    stuffFrom s run (true :: x) = true :: stuffFrom s (run + 1) x := if_neg more

/-- STUFF's course while its counter is below `s`, which it stays: a 0 and the 1 that fills the run start the count again. -/
theorem stuffFrom_induction {s : Nat} {motive : (run : Nat) → Bits → run < s → Prop}
    (nil : ∀ run small, motive run [] small)
    (zero : ∀ run x small, motive 0 x (Nat.zero_lt_of_lt small) → motive run (false :: x) small)
    (full : ∀ run x small, run + 1 = s → motive 0 x (Nat.zero_lt_of_lt small) → motive run (true :: x) small)
    (more : ∀ run x small (less : run + 1 < s), motive (run + 1) x less → motive run (true :: x) small)
    (run : Nat) (x : Bits) (small : run < s) : motive run x small := by
  induction x generalizing run with
  | nil => exact nil run small
  | cons b x ih =>
    cases b with
    | false => exact zero run x small (ih 0 _)
    | true =>
      rcases Nat.lt_or_eq_of_le small with less | last
      · exact more run x small less (ih (run + 1) less)
      · exact full run x small last (ih 0 _)

/-! ## The loops of the rules -/

/-- One turn of DESTUFF's loop (42 rule R150): the bits kept so far and the ones counted, with the next bit. -/
def destuffTurn (s : Nat) (acc : Bits × Nat) (bit : Bool) : Bits × Nat :=
  if bit = true then (acc.1 ++ [true], acc.2 + 1)
  else if acc.2 = s then (acc.1, 0) else (acc.1 ++ [false], 0)

/-- One turn of STUFF's loop (42 rule R152). -/
def stuffTurn (s : Nat) (acc : Bits × Nat) (bit : Bool) : Bits × Nat :=
  if bit = true then
    if acc.2 + 1 = s then (acc.1 ++ [true, false], 0) else (acc.1 ++ [true], acc.2 + 1)
  else (acc.1 ++ [false], 0)

/-- The loop that has kept `kept` and counted `run` appends what `destuffFrom` answers of the rest. -/
theorem foldl_destuffTurn (s : Nat) (f : Bits) :
    ∀ kept run, (f.foldl (destuffTurn s) (kept, run)).1 = kept ++ destuffFrom s run f := by
  induction f with
  | nil => simp
  | cons b f ih =>
    intro kept run
    rw [List.foldl_cons]
    cases b with
    | true => simp [destuffTurn, ih]
    | false =>
      by_cases full : run = s
      · simp [destuffTurn, ih, full, destuffFrom_false_of_full]
      · simp [destuffTurn, ih, full, destuffFrom_false_of_ne]

/-- As `foldl_destuffTurn`, for the loop of STUFF. -/
theorem foldl_stuffTurn (s : Nat) (x : Bits) :
    ∀ sent run, (x.foldl (stuffTurn s) (sent, run)).1 = sent ++ stuffFrom s run x := by
  induction x with
  | nil => simp
  | cons b x ih =>
    intro sent run
    rw [List.foldl_cons]
    cases b with
    | false => simp [stuffTurn, ih]
    | true =>
      by_cases full : run + 1 = s
      · simp [stuffTurn, ih, full, stuffFrom_true_of_full]
      · simp [stuffTurn, ih, full, stuffFrom_true_of_ne]

/-! ## What is dropped and what is put in -/

/-- DESTUFF only drops bits. -/
theorem destuffFrom_sublist (s : Nat) (f : Bits) : ∀ run, (destuffFrom s run f).Sublist f := by
  induction f with
  | nil => simp
  | cons b f ih =>
    intro run
    cases b with
    | true => exact (ih (run + 1)).cons_cons true
    | false =>
      by_cases full : run = s
      · rw [destuffFrom_false_of_full full]
        exact (ih 0).cons false
      · rw [destuffFrom_false_of_ne full]
        exact (ih 0).cons_cons false

/-- STUFF only puts bits in. -/
theorem sublist_stuffFrom {s run : Nat} (small : run < s) (x : Bits) : x.Sublist (stuffFrom s run x) := by
  induction run, x, small using stuffFrom_induction with
  | nil run small => exact List.nil_sublist _
  | zero run x small ih => exact ih.cons_cons false
  | full run x small last ih =>
    rw [stuffFrom_true_of_full last]
    exact (ih.cons false).cons_cons true
  | more run x small less ih =>
    rw [stuffFrom_true_of_ne less.ne]
    exact ih.cons_cons true

/-- With both counters equal, DESTUFF takes back what STUFF sends (42 rule R153's invariant). -/
theorem destuffFrom_stuffFrom {s run : Nat} (small : run < s) (x : Bits) :
    destuffFrom s run (stuffFrom s run x) = x := by
  induction run, x, small using stuffFrom_induction with
  | nil run small => rfl
  | zero run x small ih => rw [stuffFrom_false, destuffFrom_false_of_ne small.ne, ih]
  | full run x small last ih =>
    rw [stuffFrom_true_of_full last, destuffFrom_true, destuffFrom_false_of_full last, ih]
  | more run x small less ih => rw [stuffFrom_true_of_ne less.ne, destuffFrom_true, ih]

/-! ## Runs of ones -/

/-- No ones stand at the head of a sequence that starts with a 0. -/
theorem eq_zero_of_replicate_prefix_false {k : Nat} {l : Bits} (head : List.replicate k true <+: false :: l) : k = 0 := by
  cases k with
  | zero => rfl
  | succ k => cases (List.cons_prefix_cons.mp head).1

/-- A run of ones behind a 1 is one longer. -/
theorem replicate_prefix_true {k : Nat} {l : Bits} (head : List.replicate k true <+: true :: l) :
    List.replicate (k - 1) true <+: l := by
  cases k with
  | zero => exact List.nil_prefix
  | succ k => exact (List.cons_prefix_cons.mp head).2

/-- STUFF sends at most as many ones next as `run` leaves of `s`. -/
theorem add_le_of_replicate_prefix_stuffFrom {s run : Nat} (small : run < s) {x : Bits} {k : Nat}
    (head : List.replicate k true <+: stuffFrom s run x) : run + k ≤ s := by
  induction run, x, small using stuffFrom_induction generalizing k with
  | nil run small =>
    have none : k = 0 := by simpa using head
    omega
  | zero run x small =>
    have none : k = 0 := eq_zero_of_replicate_prefix_false head
    omega
  | full run x small last =>
    rw [stuffFrom_true_of_full last] at head
    have none : k - 1 = 0 := eq_zero_of_replicate_prefix_false (replicate_prefix_true head)
    omega
  | more run x small less ih =>
    rw [stuffFrom_true_of_ne less.ne] at head
    have rest : run + 1 + (k - 1) ≤ s := ih (replicate_prefix_true head)
    omega

theorem not_replicate_prefix_stuffFrom {s run : Nat} (small : run < s) (x : Bits) :
    ¬ List.replicate (s + 1) true <+: stuffFrom s run x := fun head => by
  have := add_le_of_replicate_prefix_stuffFrom small head
  omega

/-- A run of `s + 1` ones starts at none of the bits that STUFF sends. -/
theorem not_replicate_infix_stuffFrom {s run : Nat} (small : run < s) (x : Bits) :
    ¬ List.replicate (s + 1) true <:+: stuffFrom s run x := by
  induction run, x, small using stuffFrom_induction with
  | nil run small => simp
  | zero run x small ih =>
    rw [stuffFrom_false, List.infix_cons_iff]
    exact not_or_intro (not_replicate_prefix_stuffFrom small (false :: x)) ih
  | full run x small last ih =>
    have head := not_replicate_prefix_stuffFrom small (true :: x)
    have behind := not_replicate_prefix_stuffFrom (Nat.zero_lt_of_lt small) (false :: x)
    rw [stuffFrom_true_of_full last] at head ⊢
    rw [List.infix_cons_iff, List.infix_cons_iff]
    exact not_or_intro head (not_or_intro behind ih)
  | more run x small less ih =>
    have head := not_replicate_prefix_stuffFrom small (true :: x)
    rw [stuffFrom_true_of_ne less.ne] at head ⊢
    rw [List.infix_cons_iff]
    exact not_or_intro head ih

/-! ## The statements -/

/-- DESTUFF is selected in a DECODE cycle by `STUFF_EN` alone. -/
theorem execDestuff_of_decoding {s : State} (decoding : s.net.decoding = true) (stuffed : s.variant.stuffEn = true) :
    execDestuff s = .next (setDst (destuff s.variant.run s.fs) s) :=
  whenJ_of_fires (by simp [firesJ_of_decoding decoding, jPattern, jBit, stuffed]) _

/-- Settles O21. -/
theorem destuffResult : Obligations.DestuffResult :=
  ⟨fun s decoding stuffed => (exec_destuff s).trans (execDestuff_of_decoding decoding stuffed),
    fun run f => ⟨(foldl_destuffTurn run f [] 0).symm, (destuffFrom_sublist run f 0).length_le⟩⟩

/-- Settles O22: nothing is dropped, one 0 is put in for every `S` ones at most, and the run it ends is no longer than `S`. -/
theorem stuffResult : Obligations.StuffResult := by
  refine ⟨exec_stuff, fun run x positive => ⟨(foldl_stuffTurn run x [] 0).symm, ?_, ?_, ?_⟩⟩
  · exact (sublist_stuffFrom positive x).length_le
  · exact stuffFrom_length_le run positive x 0 positive
  · exact not_replicate_infix_stuffFrom positive x

/-- Settles O23. -/
theorem destuffUndoesStuff : Obligations.DestuffUndoesStuff := fun _ x positive => destuffFrom_stuffFrom positive x

end Sys2Proof.Machine
end

section
/-! SUPPORT. The next-status functions line by line (43 rules R170 to R172): in the rich one the first two lines decide alone, the
others by whether the status is Triggered. -/

namespace Sys2Proof.Machine

/-! ## The lines of the rich mode -/

/-- What lines 3 to 7 of 43 rule R170 make of the current status, where lines 1 and 2 do not decide. -/
def nextByArming (cur : AlarmStatus) (a t p : Bool) : AlarmStatus :=
  if cur = .triggered then (if a then .triggered else .disarmed)
  else if p then (if a then .armedPartial else if cur = .armedPartial then .armedPartial else .armingPartial)
  else if t then (if a then .armedTotal else if cur = .armedTotal then .armedTotal else .armingTotal)
  else .disarmed

/-- Line 1. -/
theorem nextStatusRich_alarm (cur : AlarmStatus) (a t p : Bool) :
    nextStatusRich cur a true true t p = if a then .triggered else .chime := rfl

/-- Line 2. -/
theorem nextStatusRich_off (cur : AlarmStatus) (c t p : Bool) : nextStatusRich cur true false c t p = .disarmed := rfl

/-- Lines 3 to 7. -/
theorem nextStatusRich_arming {a b c : Bool} (noAlarm : ¬(b = true ∧ c = true)) (notOff : ¬(a = true ∧ b = false))
    (cur : AlarmStatus) (t p : Bool) : nextStatusRich cur a b c t p = nextByArming cur a t p := by
  have line1 : (b && c) = false := by simpa using noAlarm
  have line2 : (a && !b) = false := by simpa using notOff
  by_cases triggered : cur = .triggered
  · cases a <;> simp [nextStatusRich, nextByArming, line1, line2, triggered]
  · simp [nextStatusRich, nextByArming, line1, line2, triggered]

/-- Which of the lines decide. -/
theorem richLines (a b c : Bool) :
    (b = true ∧ c = true) ∨ (a = true ∧ b = false) ∨ (¬(b = true ∧ c = true) ∧ ¬(a = true ∧ b = false)) := by
  tauto

/-! ## Lines 3 to 7 -/

theorem nextByArming_triggered (a t p : Bool) :
    nextByArming .triggered a t p = if a then .triggered else .disarmed := rfl

theorem nextByArming_eq_triggered {cur : AlarmStatus} {a t p : Bool} (next : nextByArming cur a t p = .triggered) :
    cur = .triggered := by
  by_contra other
  simp only [nextByArming, other, if_false] at next
  split_ifs at next

theorem nextByArming_ne_chime (cur : AlarmStatus) (a t p : Bool) : nextByArming cur a t p ≠ .chime := by
  unfold nextByArming
  split_ifs <;> decide

/-- Of the current status these lines ask only whether it is Triggered, ArmedPartial or ArmedTotal. -/
theorem nextByArming_congr {cur other : AlarmStatus} (triggered : cur = .triggered ↔ other = .triggered)
    (armedPartial : cur = .armedPartial ↔ other = .armedPartial) (armedTotal : cur = .armedTotal ↔ other = .armedTotal)
    (a t p : Bool) : nextByArming cur a t p = nextByArming other a t p := by
  simp only [nextByArming, triggered, armedPartial, armedTotal]

/-- Where bit `p` is set, bit `t` does not count. -/
theorem nextByArming_partial (cur : AlarmStatus) (a t : Bool) :
    nextByArming cur a t true = nextByArming cur a false true := rfl

/-! ## The tables -/

/-- Consequence (i) of 43 rule R171: from line 3 on, `a` comes with `b` and without `c`. -/
theorem armed_bits {a b c : Bool} (noAlarm : ¬(b = true ∧ c = true)) (notOff : ¬(a = true ∧ b = false))
    (armed : a = true) : b = true ∧ c = false := by
  have kept : b = true := by simpa [armed] using notOff
  exact ⟨kept, by simpa [kept] using noAlarm⟩

/-- Without `a`, the table's lines from 3 on do not depend on `b` and `c`. -/
theorem richTable_disarmed {b c : Bool} (noAlarm : ¬(b = true ∧ c = true)) (t p : Bool) :
    richTable false b c t p = richTable false false false t p := by
  cases b with
  | false => cases c <;> cases t <;> cases p <;> rfl
  | true =>
    obtain rfl : c = false := by simpa using noAlarm
    cases t <;> cases p <;> rfl

/-- The table of 43 rule R171, column by column. -/
theorem richTable_getElem? (cur : AlarmStatus) (a b c t p : Bool) :
    (richTable a b c t p)[(statusNum cur).toNat]? = some (nextStatusRich cur a b c t p) := by
  rcases richLines a b c with ⟨rfl, rfl⟩ | ⟨rfl, rfl⟩ | ⟨noAlarm, notOff⟩
  · rw [nextStatusRich_alarm]
    cases a <;> cases cur <;> rfl
  · rw [nextStatusRich_off]
    cases cur <;> rfl
  · rw [nextStatusRich_arming noAlarm notOff]
    cases a with
    | true =>
      obtain ⟨rfl, rfl⟩ := armed_bits noAlarm notOff rfl
      cases p <;> cases t <;> cases cur <;> rfl
    | false =>
      rw [richTable_disarmed noAlarm]
      cases p <;> cases t <;> cases cur <;> rfl

/-- Consequence (ii) of 43 rule R171: Triggered is entered only by line 1. -/
theorem nextStatusRich_eq_triggered {cur : AlarmStatus} {a b c t p : Bool}
    (next : nextStatusRich cur a b c t p = .triggered) : cur = .triggered ∨ (a = true ∧ b = true ∧ c = true) := by
  rcases richLines a b c with ⟨rfl, rfl⟩ | ⟨rfl, rfl⟩ | ⟨noAlarm, notOff⟩
  · cases a with
    | false => cases next
    | true => exact .inr ⟨rfl, rfl, rfl⟩
  · cases next
  · rw [nextStatusRich_arming noAlarm notOff] at next
    exact .inl (nextByArming_eq_triggered next)

/-- Consequence (ii) of 43 rule R171: Triggered is left to Chime by line 1, by line 2, or by line 6. -/
theorem nextStatusRich_leaves_triggered {a b c t p : Bool} (leaves : nextStatusRich .triggered a b c t p ≠ .triggered) :
    (a = false ∧ b = true ∧ c = true ∧ nextStatusRich .triggered a b c t p = .chime) ∨ (a = true ∧ b = false)
      ∨ (a = false ∧ ¬(b = true ∧ c = true)) := by
  rcases richLines a b c with ⟨rfl, rfl⟩ | off | ⟨noAlarm, notOff⟩
  · cases a with
    | false => exact .inl ⟨rfl, rfl, rfl, rfl⟩
    | true => exact absurd rfl leaves
  · exact .inr (.inl off)
  · rw [nextStatusRich_arming noAlarm notOff, nextByArming_triggered] at leaves
    cases a with
    | false => exact .inr (.inr ⟨rfl, noAlarm⟩)
    | true => exact absurd rfl leaves

theorem nextStatusRich_eq_chime_iff {cur : AlarmStatus} {a b c t p : Bool} :
    nextStatusRich cur a b c t p = .chime ↔ a = false ∧ b = true ∧ c = true := by
  rcases richLines a b c with ⟨rfl, rfl⟩ | ⟨rfl, rfl⟩ | ⟨noAlarm, notOff⟩
  · rw [nextStatusRich_alarm]
    cases a <;> simp
  · simp [nextStatusRich_off]
  · rw [nextStatusRich_arming noAlarm notOff]
    exact iff_of_false (nextByArming_ne_chime cur a t p) fun ⟨_, alarm⟩ => noAlarm alarm

theorem nextStatusRich_congr {cur other : AlarmStatus} (triggered : cur = .triggered ↔ other = .triggered)
    (armedPartial : cur = .armedPartial ↔ other = .armedPartial) (armedTotal : cur = .armedTotal ↔ other = .armedTotal)
    (a b c t p : Bool) : nextStatusRich cur a b c t p = nextStatusRich other a b c t p := by
  rcases richLines a b c with ⟨rfl, rfl⟩ | ⟨rfl, rfl⟩ | ⟨noAlarm, notOff⟩
  · rfl
  · rfl
  · rw [nextStatusRich_arming noAlarm notOff, nextStatusRich_arming noAlarm notOff]
    exact nextByArming_congr triggered armedPartial armedTotal a t p

theorem nextStatusRich_partial (cur : AlarmStatus) (a b c : Bool) :
    nextStatusRich cur a b c true true = nextStatusRich cur a b c false true := by
  rcases richLines a b c with ⟨rfl, rfl⟩ | ⟨rfl, rfl⟩ | ⟨noAlarm, notOff⟩
  · rfl
  · rfl
  · rw [nextStatusRich_arming noAlarm notOff, nextStatusRich_arming noAlarm notOff, nextByArming_partial]

/-- Settles O28. -/
theorem nextStatusTables : Obligations.NextStatusTables := by
  refine ⟨fun cur a b c t p => ⟨richTable_getElem? cur a b c t p, armed_bits, nextStatusRich_eq_triggered, ?_,
    nextStatusRich_eq_chime_iff, fun other triggered armedPartial armedTotal =>
      nextStatusRich_congr triggered armedPartial armedTotal a b c t p, nextStatusRich_partial cur a b c⟩,
    rfl, rfl, rfl, rfl, rfl, rfl, rfl, rfl⟩
  rintro rfl
  exact nextStatusRich_leaves_triggered

end Sys2Proof.Machine
end

section
/-! SUPPORT. The masks of a Zone Report bit by bit (43 rule R166) and the events they stand for (43 rule R167). -/

namespace Sys2Proof.Machine

/-! ## The masks -/

theorem zoneMask_getLsbD (v : Variant) (first : Nat) (d : Bits) {z : Nat} (small : z < 16) :
    (zoneMask v first d).getLsbD z = (decide (bankOffset v d ≤ z ∧ z < bankOffset v d + 8)
      && frameBit d (first + (z - bankOffset v d))) := by
  simp [zoneMask, vecOf_getLsbD, small, -BitVec.getLsbD_eq_getElem]

/-! ## The events -/

/-- The events of one mask, by ascending zone. -/
def maskEvents (mask : BitVec 16) (kind : ZoneKind) : List (Nat × ZoneKind) :=
  ((List.range 16).filter fun z => mask.getLsbD z).map fun z => (z + 1, kind)

theorem zoneEvents_eq (m : ZoneMasks) : zoneEvents m = maskEvents m.active .activated ++ maskEvents m.trig .triggered := rfl

/-- Bit `z - 1` of the mask stands for zone `z`. -/
theorem mem_maskEvents {mask : BitVec 16} {kind : ZoneKind} {e : Nat × ZoneKind} :
    e ∈ maskEvents mask kind ↔ e.2 = kind ∧ 1 ≤ e.1 ∧ e.1 ≤ 16 ∧ mask.getLsbD (e.1 - 1) = true := by
  obtain ⟨zone, otherKind⟩ := e
  simp only [maskEvents, List.mem_map, List.mem_filter, List.mem_range, Prod.mk.injEq]
  constructor
  · rintro ⟨z, ⟨small, isSet⟩, rfl, rfl⟩
    exact ⟨rfl, by omega, by omega, isSet⟩
  · rintro ⟨rfl, low, high, isSet⟩
    exact ⟨zone - 1, ⟨by omega, isSet⟩, by omega, rfl⟩

theorem maskEvents_ascending (mask : BitVec 16) (kind : ZoneKind) :
    (maskEvents mask kind).Pairwise fun e g => e.2 = g.2 ∧ e.1 < g.1 :=
  (List.pairwise_lt_range.filter _).map _ fun _ _ less => ⟨rfl, Nat.succ_lt_succ less⟩

/-- Settles O26: each mask's events ascend, and the two masks' lists stand one after the other. -/
theorem zoneEventOrder : Obligations.ZoneEventOrder := by
  intro m
  rw [zoneEvents_eq]
  refine ⟨fun z => ⟨?_, ?_⟩, List.pairwise_append.mpr ⟨?_, ?_, ?_⟩⟩
  · simp [mem_maskEvents]
  · simp [mem_maskEvents]
  · exact (maskEvents_ascending m.active .activated).imp .inr
  · exact (maskEvents_ascending m.trig .triggered).imp .inr
  · intro e activated g triggered
    exact .inl ⟨(mem_maskEvents.mp activated).1, (mem_maskEvents.mp triggered).1⟩

end Sys2Proof.Machine
end

section
/-! SUPPORT. The frame decoder (43 rules R160 to R175, 44 rule R186): what each part of DECODE does with a frame of its kind, as
one update, and the whole of DECODE put together from them. -/

namespace Sys2Proof.Machine

/-! ## Arms of the dispatch -/

theorem exec_discardMalformed (s : State) : exec .discardMalformed s = execDiscardMalformed s := rfl
theorem exec_discardLength (s : State) : exec .discardLength s = execDiscardLength s := rfl
theorem exec_zoneDecode (s : State) : exec .zoneDecode s = execZoneDecode s := rfl
theorem exec_zoneForce (s : State) : exec .zoneForce s = execZoneForce s := rfl
theorem exec_statusDecode (s : State) : exec .statusDecode s = execStatusDecode s := rfl
theorem exec_nextStatusRich (s : State) : exec .nextStatusRich s = execNextStatusRich s := rfl
theorem exec_nextStatusSimple (s : State) : exec .nextStatusSimple s = execNextStatusSimple s := rfl
theorem exec_trace (s : State) : exec .trace s = execTrace s := rfl
theorem exec_decode (s : State) : exec .decode s = execDecode s := rfl

/-! ## The discards and the trace -/

/-- A frame that is not 72 bits long is discarded, by its length modulo 8 in one of two ways (43 rules R163, R164), and no
other part reads it. -/
theorem firesJ_of_short {s : State} (decoding : s.net.decoding = true) (short : s.net.dst.length ≠ 72) :
    firesJ .discardMalformed s = decide (s.net.dst.length % 8 ≠ 0)
      ∧ firesJ .discardLength s = decide (s.net.dst.length % 8 = 0)
      ∧ firesJ .zoneDecode s = false ∧ firesJ .statusDecode s = false := by
  simp [firesJ_of_decoding decoding, jPattern, jBit, short]

theorem not72_of_odd {d : Bits} (odd : d.length % 8 ≠ 0) : d.length ≠ 72 := fun long => odd (by rw [long])

theorem execDiscardMalformed_of_odd {s : State} (decoding : s.net.decoding = true) (odd : s.net.dst.length % 8 ≠ 0) :
    execDiscardMalformed s = .next (raise .malformedFrame s) :=
  whenJ_of_fires ((firesJ_of_short decoding (not72_of_odd odd)).1.trans (decide_eq_true odd)) _

theorem execDiscardLength_of_bytes {s : State} (decoding : s.net.decoding = true) (bytes : s.net.dst.length % 8 = 0)
    (short : s.net.dst.length ≠ 72) : execDiscardLength s = .next (raise .unexpectedLength s) :=
  whenJ_of_fires ((firesJ_of_short decoding short).2.1.trans (decide_eq_true bytes)) _

/-- TRACE, where it is enabled, shows the reason and the frame that the wires hold; it writes nothing else. -/
def traced (s : State) : State := { s with
  out := { s.out with
    trc := if s.inp.dbgTraceEn then some { reason := s.net.reason, raw := s.fs, dst := s.net.dst } else s.out.trc } }

theorem execTrace_of_decoding {s : State} (decoding : s.net.decoding = true) : execTrace s = .next (traced s) := by
  have selects : firesJ .trace s = s.inp.dbgTraceEn := by simp [firesJ_of_decoding decoding, jPattern, jBit]
  rw [execTrace, whenJ, selects, traced]
  cases s.inp.dbgTraceEn <;> rfl

/-- Bit `i` of a trace port is bit `i` of its sequence, 0 beyond it. -/
theorem portBits_getElem? {cap i : Nat} (small : i < cap) (b : Bits) :
    (portBits cap b)[i]? = some (b.getD i false) := by
  simp [portBits, small]

/-! ## The status update (44 rule R186) -/

/-- STATUS_UPDATE(`next`): the status is published, and stored where it changes. -/
def updateStatus (next : AlarmStatus) (s : State) : State := { s with
  status := next
  net := { s.net with nextStatus := next }
  out := { s.out with
    st := some next, store := if next != s.status then some (storeMap s.variant next) else s.out.store } }

/-- The store part and the publish part make STATUS_UPDATE, for either way into it. -/
theorem runUpdate {store publish : Instr} {next : AlarmStatus} {s : State}
    (stores : firesJ store (setNext next s) = (next != s.status)) (publishes : firesJ publish (setNext next s) = true) :
    runAll [fun u => whenJ store u (.next (storeNext u)), fun u => whenJ publish u (.next (publishNext u))] (setNext next s)
      = .next (updateStatus next s) := by
  have stillPublishes : firesJ publish (storeNext (setNext next s)) = true := publishes
  rw [runAll_cons, whenJ, stores, updateStatus]
  cases next != s.status with
  | false =>
    rw [if_neg Bool.false_ne_true, andThen_next, runAll_cons, whenJ_of_fires publishes]
    rfl
  | true =>
    rw [if_pos rfl, andThen_next, runAll_cons, whenJ_of_fires stillPublishes]
    rfl

/-! ## Zone Reports -/

/-- The frame `d` forces Triggered (43 rule R168). -/
def forces (v : Variant) (d : Bits) : Bool := v.zoneTrigForces && anyTriggered v d

theorem Reading.jForce {kind : Bool} {s : State} (reading : Reading kind s) :
    jBit s .force = forces s.variant s.net.dst := by
  rw [jBit, reading.long]
  rfl

theorem Reading.zoneUpdate_fires {s : State} (reading : Reading false s) :
    firesJ .updPublishZone s = forces s.variant s.net.dst
      ∧ firesJ .updStoreZone s = (forces s.variant s.net.dst && jBit s .chg) := by
  simp [firesJ_of_decoding reading.decoding, jPattern, reading.odd, reading.n72, reading.jDisc, reading.jForce]

theorem Reading.setNext {kind : Bool} {s : State} (reading : Reading kind s) (st : AlarmStatus) :
    Reading kind (setNext st s) := ⟨reading.decoding, reading.long, reading.disc⟩

theorem Reading.setReason {kind : Bool} {s : State} (reading : Reading kind s) (r : TrcReason) :
    Reading kind (setReason r s) := ⟨reading.decoding, reading.long, reading.disc⟩

theorem Reading.pulseZone {kind : Bool} {s : State} (reading : Reading kind s) (m : ZoneMasks) :
    Reading kind (pulseZone m s) := ⟨reading.decoding, reading.long, reading.disc⟩

/-- ZONE_FORCE updates the status to Triggered where the frame forces it, and does nothing otherwise. -/
theorem execZoneForce_of_reading {s : State} (reading : Reading false s) :
    execZoneForce s = .next (if forces s.variant s.net.dst then updateStatus .triggered s else s) := by
  obtain ⟨-, fires, -⟩ := reading.fires
  obtain ⟨publishes, stores⟩ := (reading.setNext .triggered).zoneUpdate_fires
  rw [reading.jForce] at fires
  cases forced : forces s.variant s.net.dst with
  | false => exact whenJ_of_not_fires (fires.trans (by rw [forced]; rfl)) _
  | true =>
    rw [execZoneForce, whenJ_of_fires (fires.trans (by rw [forced]; rfl))]
    exact runUpdate (stores.trans (by simp [forced, jBit])) (publishes.trans forced)

/-- The frame on the wire has been read as a Zone Report, before the forcing. -/
def zoned (s : State) : State := pulseZone (zoneMasks s.variant s.net.dst) (setReason .zoneReport s)

theorem execZoneDecode_of_reading {s : State} (reading : Reading false s) :
    execZoneDecode s
      = .next (if forces s.variant s.net.dst then updateStatus .triggered (zoned s) else zoned s) := by
  rw [execZoneDecode, whenJ_of_fires reading.fires.1]
  exact execZoneForce_of_reading ((reading.setReason _).pulseZone _)

/-! ## Status Reports -/

/-- NEXT_STATUS_RICH on the fields of `d` (43 rule R169). -/
def richStatus (v : Variant) (cur : AlarmStatus) (d : Bits) : AlarmStatus :=
  nextStatusRich cur (frameBit d v.idxA) (frameBit d v.idxB) (frameBit d v.idxC) (frameBit d v.idxTotal)
    (frameBit d v.idxPartial)

/-- NEXT_STATUS_SIMPLE on the fields of `d` (43 rule R169). -/
def simpleStatus (v : Variant) (d : Bits) : AlarmStatus :=
  nextStatusSimple (frameBit d v.idxC) (frameBit d v.idxTotal) (frameBit d v.idxPartial)

/-- The next status by the function that the Variant selects. -/
def reportStatus (v : Variant) (cur : AlarmStatus) (d : Bits) : AlarmStatus :=
  if v.decodeMode = .rich then richStatus v cur d else simpleStatus v d

/-- NEXT_STATUS_RICH works in rich mode, NEXT_STATUS_SIMPLE in the other. -/
theorem execNextStatus_of_reading {s : State} (reading : Reading true s) :
    execNextStatusRich s = .next (if s.variant.decodeMode = .rich
        then setNext (richStatus s.variant s.status s.net.dst) s else s)
      ∧ execNextStatusSimple s = .next (if s.variant.decodeMode = .rich
        then s else setNext (simpleStatus s.variant s.net.dst) s) := by
  obtain ⟨-, -, -, rich, simple, -⟩ := reading.fires
  cases mode : s.variant.decodeMode with
  | rich =>
    exact ⟨whenJ_of_fires (rich.trans (by simp [jBit, mode])) _,
      whenJ_of_not_fires (simple.trans (by simp [jBit, mode])) _⟩
  | simple =>
    exact ⟨whenJ_of_not_fires (rich.trans (by simp [jBit, mode])) _,
      whenJ_of_fires (simple.trans (by simp [jBit, mode])) _⟩

/-- One of the two functions puts the next status on its wire. -/
theorem runNextStatus {s : State} (reading : Reading true s) :
    runAll [execNextStatusRich, execNextStatusSimple] s
      = .next (setNext (reportStatus s.variant s.status s.net.dst) s) := by
  obtain ⟨rich, -⟩ := execNextStatus_of_reading reading
  rw [runAll_cons, rich, andThen_next, runAll_cons, reportStatus]
  split
  · next mode =>
    rw [(execNextStatus_of_reading (reading.setNext _)).2, setNext_variant, if_pos mode]
    rfl
  · next mode =>
    rw [(execNextStatus_of_reading reading).2, if_neg mode]
    rfl

theorem execStatusDecode_of_reading {s : State} (reading : Reading true s) :
    execStatusDecode s
      = .next (updateStatus (reportStatus s.variant s.status s.net.dst) (setReason .statusReport s)) := by
  obtain ⟨-, -, decodes, -⟩ := reading.fires
  have reasoned := reading.setReason .statusReport
  obtain ⟨-, -, -, -, -, publishes, stores⟩ :=
    (reasoned.setNext (reportStatus s.variant s.status s.net.dst)).fires
  rw [execStatusDecode, whenJ_of_fires decodes]
  change runAll ([execNextStatusRich, execNextStatusSimple] ++ [execUpdStoreStatus, execUpdPublishStatus]) _ = _
  rw [runAll_append, runNextStatus reasoned, andThen_next]
  exact runUpdate stores publishes

/-! ## The whole of DECODE -/

/-- The sequence `D` that DECODE reads of the snapshot (43 rule R160). -/
def received (s : State) : Bits := if s.variant.stuffEn then destuff s.variant.run s.fs else s.fs

/-- DECODE has begun and `D` stands on its wire. -/
def begun (s : State) : State := setDst (received s) (beginDecode s)

theorem execDestuff_beginDecode (s : State) : execDestuff (beginDecode s) = .next (begun s) := by
  cases stuffed : s.variant.stuffEn with
  | false =>
    rw [execDestuff, whenJ_of_not_fires (by simp [firesJ, jPattern, jBit, stuffed]), begun, received, stuffed]
    rfl
  | true =>
    rw [execDestuff_of_decoding (s := beginDecode s) rfl stuffed, begun, received, stuffed]
    rfl

/-- What a frame on DECODE's wire leads to before the trace (43 rules R163 to R169). -/
def decoded (s : State) : State :=
  if s.net.dst.length % 8 ≠ 0 then raise .malformedFrame s
  else if s.net.dst.length ≠ 72 then raise .unexpectedLength s
  else if frameBit s.net.dst s.variant.idxDisc then
    updateStatus (reportStatus s.variant s.status s.net.dst) (setReason .statusReport s)
  else if forces s.variant s.net.dst then updateStatus .triggered (zoned s)
  else zoned s

theorem decoded_of_odd {s : State} (odd : s.net.dst.length % 8 ≠ 0) : decoded s = raise .malformedFrame s := if_pos odd

theorem decoded_of_bytes {s : State} (bytes : s.net.dst.length % 8 = 0) (short : s.net.dst.length ≠ 72) :
    decoded s = raise .unexpectedLength s := by
  rw [decoded, if_neg (not_not.mpr bytes), if_pos short]

theorem decoded_of_report {s : State} (reading : Reading true s) :
    decoded s = updateStatus (reportStatus s.variant s.status s.net.dst) (setReason .statusReport s) := by
  rw [decoded, reading.long, reading.disc]
  rfl

theorem decoded_of_zone {s : State} (reading : Reading false s) :
    decoded s = if forces s.variant s.net.dst then updateStatus .triggered (zoned s) else zoned s := by
  rw [decoded, reading.long, reading.disc]
  rfl

theorem Reading.not_discarded {kind : Bool} {s : State} (reading : Reading kind s) :
    firesJ .discardMalformed s = false ∧ firesJ .discardLength s = false := by
  simp [firesJ_of_decoding reading.decoding, jPattern, reading.odd, reading.n72]

theorem Reading.updateStatus {kind : Bool} {s : State} (reading : Reading kind s) (next : AlarmStatus) :
    Reading kind (updateStatus next s) := ⟨reading.decoding, reading.long, reading.disc⟩

/-- A Status Report is no Zone Report. -/
theorem runReports_of_report {s : State} (reading : Reading true s) :
    runAll [execZoneDecode, execStatusDecode] s = .next (decoded s) := by
  rw [runAll_cons, execZoneDecode, whenJ_of_not_fires reading.fires.1, andThen_next, runAll_cons,
    execStatusDecode_of_reading reading, decoded_of_report reading]
  rfl

/-- A Zone Report is no Status Report, whatever it has updated. -/
theorem runReports_of_zone {s : State} (reading : Reading false s) :
    runAll [execZoneDecode, execStatusDecode] s = .next (decoded s) := by
  have masked : Reading false (zoned s) := (reading.setReason _).pulseZone _
  have still : Reading false (decoded s) := by
    rw [decoded_of_zone reading]
    split
    · exact masked.updateStatus _
    · exact masked
  obtain ⟨-, -, reports, -⟩ := still.fires
  rw [runAll_cons, execZoneDecode_of_reading reading, ← decoded_of_zone reading, andThen_next, runAll_cons,
    execStatusDecode, whenJ_of_not_fires reports]
  rfl

/-- No part reads a frame after a discard. -/
theorem runReports_of_short {s : State} (decoding : s.net.decoding = true) (short : s.net.dst.length ≠ 72) :
    runAll [execZoneDecode, execStatusDecode] s = .next s := by
  obtain ⟨-, -, zone, status⟩ := firesJ_of_short decoding short
  rw [runAll_cons, execZoneDecode, whenJ_of_not_fires zone, andThen_next, runAll_cons, execStatusDecode,
    whenJ_of_not_fires status]
  rfl

theorem Reading.of_long {s : State} (decoding : s.net.decoding = true) (long : s.net.dst.length = 72) :
    Reading (frameBit s.net.dst s.variant.idxDisc) s := ⟨decoding, long, rfl⟩

/-- Of the four parts between DESTUFF and TRACE exactly one reads the frame. -/
theorem runParts {s : State} (decoding : s.net.decoding = true) :
    runAll [execDiscardMalformed, execDiscardLength, execZoneDecode, execStatusDecode] s = .next (decoded s) := by
  rw [runAll_cons]
  by_cases long : s.net.dst.length = 72
  · have reading := Reading.of_long decoding long
    obtain ⟨malformed, length⟩ := reading.not_discarded
    rw [execDiscardMalformed, whenJ_of_not_fires malformed, andThen_next, runAll_cons, execDiscardLength,
      whenJ_of_not_fires length, andThen_next]
    cases kind : frameBit s.net.dst s.variant.idxDisc with
    | false => exact runReports_of_zone (kind ▸ reading)
    | true => exact runReports_of_report (kind ▸ reading)
  · obtain ⟨malformed, length, -⟩ := firesJ_of_short decoding long
    by_cases odd : s.net.dst.length % 8 ≠ 0
    · have later : firesJ .discardLength (raise .malformedFrame s) = false := length.trans (decide_eq_false odd)
      rw [decoded_of_odd odd, execDiscardMalformed_of_odd decoding odd, andThen_next, runAll_cons, execDiscardLength,
        whenJ_of_not_fires later, andThen_next]
      exact runReports_of_short decoding long
    · have silent : firesJ .discardMalformed s = false := malformed.trans (decide_eq_false odd)
      rw [decoded_of_bytes (not_not.mp odd) long, execDiscardMalformed, whenJ_of_not_fires silent, andThen_next,
        runAll_cons, execDiscardLength_of_bytes decoding (not_not.mp odd) long, andThen_next]
      exact runReports_of_short decoding long

theorem decoded_decoding (s : State) : (decoded s).net.decoding = s.net.decoding := by
  unfold decoded
  split_ifs <;> rfl

/-- DECODE of a held snapshot: its frame is read, then traced where tracing is enabled. -/
theorem execDecode_of_held {s : State} (run : s.inp.rst = false) (held : s.fsValid = true) :
    execDecode s = .next (traced (decoded (begun s))) := by
  have fires : firesK .decode s = true := by simp [firesK, kPattern, kBit, run, held]
  rw [execDecode, whenK_of_fires fires, runAll_cons, execDestuff_beginDecode, andThen_next]
  change runAll ([execDiscardMalformed, execDiscardLength, execZoneDecode, execStatusDecode] ++ [execTrace]) _ = _
  rw [runAll_append, runParts rfl, andThen_next, runAll_cons, execTrace_of_decoding (decoded_decoding _)]
  rfl

/-! ## The statements -/

/-- Settles O24. -/
theorem discardResult : Obligations.DiscardResult := fun s decoding =>
  ⟨fun odd => (exec_discardMalformed s).trans (execDiscardMalformed_of_odd decoding odd),
    fun bytes short => (exec_discardLength s).trans (execDiscardLength_of_bytes decoding bytes short)⟩

/-- Settles O30. -/
theorem traceResult : Obligations.TraceResult := by
  intro s decoding enabled
  refine ⟨?_, rfl, rfl, rfl, rfl, fun i small => ⟨portBits_getElem? small s.fs, portBits_getElem? small s.net.dst⟩⟩
  rw [exec_trace, execTrace_of_decoding decoding, traced, if_pos enabled]

/-- Settles O25: the masks are those of the frame's fields, and the forcing is one update to Triggered. -/
theorem zoneDecodeResult : Obligations.ZoneDecodeResult := by
  intro s decoding long disc d v forced bank
  have reading : Reading false s := ⟨decoding, long, disc⟩
  have forcing : forces s.variant s.net.dst = forced := rfl
  refine ⟨zoneMasks v d, fun z small => ⟨zoneMask_getLsbD v v.idxActive d small,
    zoneMask_getLsbD v (v.idxActive + 8) d small⟩, ?_, fun isForced => ?_⟩
  · rw [exec_zoneDecode, execZoneDecode_of_reading reading, forcing, bne_comm]
    cases forced <;> rfl
  · rw [exec_zoneForce, execZoneForce_of_reading reading, forcing, if_pos isForced, bne_comm]
    rfl

/-- Settles O27: the wire of the new status takes the Variant's function, and the report is one update to it. -/
theorem statusDecodeResult : Obligations.StatusDecodeResult := by
  intro s decoding long disc
  have reading : Reading true s := ⟨decoding, long, disc⟩
  obtain ⟨rich, simple⟩ := execNextStatus_of_reading reading
  refine ⟨?_, fun mode => ?_, fun mode => ?_⟩
  · rw [exec_statusDecode, execStatusDecode_of_reading reading]
    rfl
  · rw [exec_nextStatusRich, rich, if_pos mode]
    rfl
  · rw [exec_nextStatusSimple, simple, if_neg (by simp [mode])]
    rfl

/-- Settles O31: a frame that is not whole is discarded, a whole one is a Zone Report or a Status Report; then the trace. -/
theorem decodeResult : Obligations.DecodeResult := by
  intro s run held v d whole zone report forced next reason
  refine ⟨(decoded (begun s)).net, ?_⟩
  rw [exec_decode, execDecode_of_held run held]
  by_cases long : d.length = 72
  · have isWhole : whole = true := decide_eq_true long
    have bytes : ¬d.length % 8 ≠ 0 := by rw [long]; decide
    have why : reason = if zone then .zoneReport else .statusReport := (if_neg bytes).trans (if_neg (not_not.mpr long))
    have reading : Reading (d.getD v.idxDisc false) (begun s) := Reading.of_long (s := begun s) rfl long
    cases kind : d.getD v.idxDisc false with
    | false =>
      rw [kind] at reading
      have isZone : zone = true := by simp only [zone, isWhole, kind, Bool.not_false, Bool.and_self]
      have noReport : report = false := by simp only [report, kind, Bool.and_false]
      have forcing : forces v d = forced := by simp only [forced, isZone, Bool.true_and]; rfl
      have read : decoded (begun s) = if forced then updateStatus .triggered (zoned (begun s)) else zoned (begun s) := by
        rw [← forcing]
        exact decoded_of_zone reading
      rw [read, why, isZone, noReport]
      cases force : forced with
      | false => rfl
      | true =>
        have table : next = .triggered := if_pos force
        rw [table]
        rfl
    | true =>
      rw [kind] at reading
      have noZone : zone = false := by simp only [zone, kind, Bool.not_true, Bool.and_false]
      have isReport : report = true := by simp only [report, isWhole, kind, Bool.and_self]
      have noForce : forced = false := by simp only [forced, noZone, Bool.false_and]
      have table : next = reportStatus v s.status d := if_neg (by simp [noForce])
      rw [decoded_of_report reading, why, isReport, noForce, noZone, table]
      rfl
  · have notWhole : whole = false := decide_eq_false long
    have noZone : zone = false := by simp only [zone, notWhole, Bool.false_and]
    have noReport : report = false := by simp only [report, notWhole, Bool.false_and]
    have noForce : forced = false := by simp only [forced, noZone, Bool.false_and]
    rw [noReport, noForce, noZone]
    by_cases odd : d.length % 8 ≠ 0
    · have why : reason = .notMultipleOf8 := if_pos odd
      rw [decoded_of_odd odd, why]
      rfl
    · have why : reason = .not72 := (if_neg odd).trans (if_pos long)
      rw [decoded_of_bytes (not_not.mp odd) long, why]
      rfl

end Sys2Proof.Machine
end

section
/-! SUPPORT. The alarm status (44_alarm_state.md): its load and its persisted byte (rules R185, R188), the two parts of
STATUS_UPDATE (rule R186), and who writes it (rule R187). -/

namespace Sys2Proof.Machine

/-! ## Arms of the dispatch -/

theorem exec_statusLoad (s : State) : exec .statusLoad s = execStatusLoad s := rfl
theorem exec_storeFailLatch (s : State) : exec .storeFailLatch s = execStoreFailLatch s := rfl
theorem exec_updPublishStatus (s : State) : exec .updPublishStatus s = execUpdPublishStatus s := rfl
theorem exec_updPublishZone (s : State) : exec .updPublishZone s = execUpdPublishZone s := rfl
theorem exec_updStoreStatus (s : State) : exec .updStoreStatus s = execUpdStoreStatus s := rfl
theorem exec_updStoreZone (s : State) : exec .updStoreZone s = execUpdStoreZone s := rfl

/-! ## The load and the persisted byte -/

/-- Every code up to 6 names the status that has it. -/
theorem exists_statusOfNum {c : Nat} (small : c ≤ 6) : ∃ st, statusOfNum c = some st ∧ (statusNum st).toNat = c := by
  interval_cases c <;> exact ⟨_, rfl, rfl⟩

theorem statusNum_le (st : AlarmStatus) : (statusNum st).toNat ≤ 6 := by
  cases st <;> decide

theorem loadMap_vRef (b : Byte) : loadMap Config.vRef b = (statusOfNum (min b.toNat 6)).getD .armingPartial := rfl

theorem storeMap_vRef (st : AlarmStatus) : storeMap Config.vRef st = (statusNum st).setWidth 8 := rfl

/-- `V_REF` loads a byte as the status whose code it is, a byte beyond the codes as the last one. -/
theorem statusNum_loadMap_vRef (b : Byte) : (statusNum (loadMap Config.vRef b)).toNat = min b.toNat 6 := by
  obtain ⟨st, named, code⟩ := exists_statusOfNum (Nat.min_le_right b.toNat 6)
  rw [loadMap_vRef, named, Option.getD_some, code]

/-- In `V_REF` the byte that persists a status loads back to it (44 rule R188). -/
theorem loadMap_storeMap_vRef (st : AlarmStatus) : loadMap Config.vRef (storeMap Config.vRef st) = st := by
  have wide : ((statusNum st).setWidth 8).toNat = (statusNum st).toNat := BitVec.toNat_setWidth_of_le (by decide)
  rw [loadMap_vRef, storeMap_vRef, wide, Nat.min_eq_left (statusNum_le st), statusOfNum_statusNum, Option.getD_some]

/-- Settles O33: the load is one update without a pulse, and `V_REF`'s two maps are inverse on the codes. -/
theorem statusLoadResult : Obligations.StatusLoadResult := by
  refine ⟨fun s rst => ?_, statusNum_loadMap_vRef, fun st => ⟨storeMap_vRef st, loadMap_storeMap_vRef st⟩⟩
  rw [exec_statusLoad, execStatusLoad, if_pos rst]
  rfl

/-- Settles O34: the input selects STORE_FAIL_LATCH, whose one update is X7's. -/
theorem storeFailResult : Obligations.StoreFailResult := by
  intro s run failed
  have fires : firesK .storeFailLatch s = true := by simp [firesK, kPattern, kBit, run, failed]
  rw [exec_storeFailLatch, execStoreFailLatch, whenK_of_fires fires]
  rfl

/-! ## The parts of STATUS_UPDATE -/

/-- The wires and the Variant of `s` select STATUS_UPDATE by the rows `store` and `publish`, whatever the registers and
pulses are: the publish part always, the store part where the status changes (43 rule R162). -/
def SelectsUpdate (store publish : Instr) (s : State) : Prop :=
  ∀ u : State, u.net = s.net → u.variant = s.variant →
    firesJ publish u = true ∧ firesJ store u = (u.net.nextStatus != u.status)

theorem Reading.of_wires {kind : Bool} {s u : State} (reading : Reading kind s) (net : u.net = s.net)
    (variant : u.variant = s.variant) : Reading kind u :=
  ⟨by rw [net]; exact reading.decoding, by rw [net]; exact reading.long, by rw [net, variant]; exact reading.disc⟩

/-- A Status Report always updates the status. -/
theorem Reading.selectsUpdate_status {s : State} (reading : Reading true s) :
    SelectsUpdate .updStoreStatus .updPublishStatus s := fun _ net variant => by
  obtain ⟨-, -, -, -, -, publishes, stores⟩ := (reading.of_wires net variant).fires
  exact ⟨publishes, stores⟩

/-- A Zone Report updates the status where it forces Triggered. -/
theorem Reading.selectsUpdate_zone {s : State} (reading : Reading false s)
    (forced : forces s.variant s.net.dst = true) : SelectsUpdate .updStoreZone .updPublishZone s := fun u net variant => by
  obtain ⟨publishes, stores⟩ := (reading.of_wires net variant).zoneUpdate_fires
  have forcedHere : forces u.variant u.net.dst = true := by rw [net, variant, forced]
  rw [forcedHere] at publishes stores
  exact ⟨publishes, stores⟩

/-- STATUS_UPDATE of the status on the wire. -/
theorem updateStatus_nextStatus (s : State) : updateStatus s.net.nextStatus s = { s with
    status := s.net.nextStatus
    out := { s.out with
      st := some s.net.nextStatus
      store := if s.net.nextStatus ≠ s.status then some (storeMap s.variant s.net.nextStatus) else s.out.store } } := by
  simp only [updateStatus, bne_iff_ne]

/-- The same update again publishes and does not store. -/
theorem updateStatus_again (next : AlarmStatus) (s : State) :
    updateStatus next { updateStatus next s with out := Pulses.zero }
      = { updateStatus next s with out := { Pulses.zero with st := some next } } := by
  simp [updateStatus, Pulses.zero]

/-- The two parts alone, one after the other, and once more on the updated state. -/
theorem SelectsUpdate.results {store publish : Instr} {s : State} (selects : SelectsUpdate store publish s) :
    let parts := [fun u => whenJ store u (.next (storeNext u)), fun u => whenJ publish u (.next (publishNext u))]
    let updated := updateStatus s.net.nextStatus s
    whenJ publish s (.next (publishNext s)) = .next (publishNext s)
    ∧ whenJ store s (.next (storeNext s)) = .next (if s.net.nextStatus ≠ s.status then storeNext s else s)
    ∧ runAll parts s = .next updated
    ∧ runAll parts { updated with out := Pulses.zero }
        = .next { updated with out := { Pulses.zero with st := some s.net.nextStatus } } := by
  obtain ⟨publishes, stores⟩ := selects s rfl rfl
  obtain ⟨publishesAgain, storesAgain⟩ := selects { updateStatus s.net.nextStatus s with out := Pulses.zero } rfl rfl
  refine ⟨whenJ_of_fires publishes _, ?_, runUpdate stores publishes, ?_⟩
  · rw [whenJ, stores]
    simp only [bne_iff_ne, apply_ite Host.Outcome.next]
  · rw [← updateStatus_again]
    exact runUpdate (s := { updateStatus s.net.nextStatus s with out := Pulses.zero }) storesAgain publishesAgain

/-- Settles O29: both ways in select the same two parts. -/
theorem statusUpdateResult : Obligations.StatusUpdateResult := by
  intro s decoding long next published stored updated again
  have whole : updateStatus next s = updated := updateStatus_nextStatus s
  have twice : again = { updated with out := { Pulses.zero with st := some next } } := rfl
  refine ⟨fun disc => ?_, fun disc configured triggered => ?_⟩
  · have reading : Reading true s := ⟨decoding, long, disc⟩
    rw [exec_updPublishStatus, exec_updStoreStatus, twice, ← whole]
    exact reading.selectsUpdate_status.results
  · have reading : Reading false s := ⟨decoding, long, disc⟩
    have forced : forces s.variant s.net.dst = true := Bool.and_eq_true_iff.mpr ⟨configured, triggered⟩
    rw [exec_updPublishZone, exec_updStoreZone, twice, ← whole]
    exact (reading.selectsUpdate_zone forced).results

/-! ## Operations that leave the status alone -/

theorem SamplerFrame.status {s t : State} (frame : SamplerFrame s t) : t.status = s.status := by rw [frame]

/-- SAMPLE, its parts and SAMPLE_SUSPEND. -/
def samplerRows : List Instr :=
  [.sample, .sampleSuspend, .winAppend, .ageInc, .flagMatch, .framePublish, .frameDrop, .boundaryToggle, .syncRecover,
    .quietDetect]

/-- A sampler operation writes the receiver, the snapshot, `ERR` and the wires, and nothing else. -/
theorem exec_samplerFrame {s t : State} {i : Instr} (row : i ∈ samplerRows) (h : exec i s = .next t) :
    SamplerFrame s t := by
  by_cases sample : i = .sample
  · subst sample
    exact execSample_frame s t h
  · by_cases publish : i = .framePublish
    · subst publish
      exact execFramePublish_frame s t h
    · simp only [samplerRows, List.mem_cons, List.not_mem_nil, sample, publish, false_or, or_false] at row
      rcases row with rfl | rfl | rfl | rfl | rfl | rfl | rfl | rfl <;>
        exact whenK_samplerFrame (fun answered => by cases answered; rfl) h

theorem execTxDrive_status {s t : State} (h : execTxDrive s = .next t) : t.status = s.status := by
  refine whenK_keeps (P := fun u => u.status = s.status) rfl (fun answered => ?_) h
  split at answered
  · cases answered
    rfl
  · cases answered

/-- No operation that K selects writes the status but RESET and DECODE (44 rule R187). -/
theorem exec_status_of_kRow {s t : State} {i : Instr} (row : i ∈ kRows) (noReset : i ≠ .reset) (noDecode : i ≠ .decode)
    (h : exec i s = .next t) : t.status = s.status := by
  by_cases sampler : i ∈ samplerRows
  · exact (exec_samplerFrame sampler h).status
  · by_cases drive : i = .txDrive
    · subst drive
      exact execTxDrive_status h
    · simp only [samplerRows, List.mem_cons, List.not_mem_nil, or_false, not_or] at sampler
      simp only [kRows, List.mem_cons, List.not_mem_nil, or_false, noReset, noDecode, drive, sampler, false_or] at row
      rcases row with rfl | rfl | rfl | rfl | rfl | rfl | rfl | rfl | rfl | rfl | rfl | rfl | rfl | rfl <;>
        exact whenK_keeps (P := fun u => u.status = s.status) rfl (fun answered => by cases answered; rfl) h

/-- `t` has the status of `s` and its pulses of STATUS_UPDATE. -/
structure StatusFrame (s t : State) : Prop where
  status : t.status = s.status
  st : t.out.st = s.out.st
  store : t.out.store = s.out.store

theorem StatusFrame.refl (s : State) : StatusFrame s s := ⟨rfl, rfl, rfl⟩

theorem StatusFrame.trans {s t u : State} (first : StatusFrame s t) (second : StatusFrame t u) : StatusFrame s u where
  status := second.status.trans first.status
  st := second.st.trans first.st
  store := second.store.trans first.store

theorem stage1_status {s t : State} (run : s.inp.rst = false) (h : stage1 s = .next t) :
    t.status = s.status ∧ t.fsValid = s.fsValid := by
  rw [stage1_eq run] at h
  cases h
  split <;> exact ⟨rfl, rfl⟩

theorem stage3_status {s t : State} (h : stage3 s = .next t) : StatusFrame s t := by
  have frame := stage3_frame h
  exact ⟨frame.status, by rw [frame.out], by rw [frame.out]⟩

theorem stage4_status {s t : State} (run : s.inp.rst = false) (h : stage4 s = .next t) : StatusFrame s t := by
  rw [stage4_eq run] at h
  cases h
  split
  · split <;> exact ⟨rfl, rfl, rfl⟩
  · exact .refl s

theorem stage5_status {s t : State} (run : s.inp.rst = false) (h : stage5 s = .next t) : StatusFrame s t := by
  cases stage5_end run h <;> exact ⟨rfl, rfl, rfl⟩

theorem stage6_status {s t : State} (run : s.inp.rst = false) (h : stage6 s = .next t) : StatusFrame s t := by
  rw [stage6_eq run] at h
  cases h
  split <;> exact ⟨rfl, rfl, rfl⟩

/-! ## What DECODE makes of the status -/

/-- A frame can take the status `cur` to `next`: by the forcing of a Zone Report, or by the next-status function of the
Variant's mode on the bits of a Status Report (43 rules R168, R170, R172). -/
def Transition (v : Variant) (cur next : AlarmStatus) : Prop :=
  (v.zoneTrigForces = true ∧ next = .triggered)
  ∨ (v.decodeMode = .rich ∧ ∃ a b c x p : Bool, next = nextStatusRich cur a b c x p)
  ∨ (v.decodeMode = .simple ∧ ∃ c x p : Bool, next = nextStatusSimple c x p)

theorem reportStatus_transition (v : Variant) (cur : AlarmStatus) (d : Bits) : Transition v cur (reportStatus v cur d) := by
  cases mode : v.decodeMode with
  | rich => exact .inr (.inl ⟨mode, _, _, _, _, _, if_pos mode⟩)
  | simple => exact .inr (.inr ⟨mode, _, _, _, if_neg (by simp [mode])⟩)

theorem forces_transition {v : Variant} {d : Bits} (forced : forces v d = true) (cur : AlarmStatus) :
    Transition v cur .triggered :=
  .inl ⟨(Bool.and_eq_true_iff.mp forced).1, rfl⟩

/-- `t` comes of `s` by a change of the status that is published, stored and a transition of the tables. -/
structure StatusChange (s t : State) : Prop where
  st : t.out.st = some t.status
  store : t.out.store = some (storeMap s.variant t.status)
  transition : Transition s.variant s.status t.status

theorem StatusChange.of_frame {s t u : State} (change : StatusChange s t) (frame : StatusFrame t u) : StatusChange s u where
  st := by rw [frame.st, frame.status, change.st]
  store := by rw [frame.store, frame.status, change.store]
  transition := by rw [frame.status]; exact change.transition

/-- An update that changes the status stores it; `u` is `s` with the frame read, its status still the old one. -/
theorem updateStatus_change {next : AlarmStatus} {s u : State} (status : u.status = s.status)
    (variant : u.variant = s.variant) (transition : Transition s.variant s.status next)
    (changed : (updateStatus next u).status ≠ s.status) : StatusChange s (updateStatus next u) where
  st := rfl
  store := by
    rw [← status] at changed
    rw [← variant]
    exact if_pos (bne_iff_ne.mpr changed)
  transition := transition

/-- A discard and a Zone Report that does not force leave the status; every other frame updates it. -/
theorem decoded_change {s : State} (changed : (decoded s).status ≠ s.status) : StatusChange s (decoded s) := by
  unfold decoded at changed ⊢
  split_ifs at changed ⊢ with odd short report forced
  · exact absurd rfl changed
  · exact absurd rfl changed
  · exact updateStatus_change rfl rfl (reportStatus_transition _ _ _) changed
  · exact updateStatus_change rfl rfl (forces_transition forced _) changed
  · exact absurd rfl changed

/-- Stage 2 changes the status only from a held snapshot. -/
theorem stage2_change {s t : State} (run : s.inp.rst = false) (h : stage2 s = .next t) (changed : t.status ≠ s.status) :
    s.fsValid = true ∧ StatusChange s t := by
  unfold stage2 at h
  split at h
  · next held =>
    rw [execDecode_of_held run held] at h
    cases h
    have change : StatusChange (begun s) (decoded (begun s)) := decoded_change changed
    exact ⟨held, change.st, change.store, change.transition⟩
  · cases h
    exact absurd rfl changed

/-- A cycle without reset that changes the status decodes a held snapshot. -/
theorem execInWord_change {f : InWord} {s t : State} (run : f.rst = false) (h : execInWord f s = .next t)
    (changed : t.status ≠ s.status) : s.fsValid = true ∧ StatusChange s t := by
  obtain ⟨u, stages, rfl⟩ := execInWord_stages run h
  obtain ⟨u1, u2, u3, u4, u5, ⟨h1, h2, h3, h4, h5, h6⟩, inp1, inp2, inp3, inp4, inp5⟩ := stages_chain run stages
  have run1 : u1.inp.rst = false := by rw [inp1]; exact run
  have run3 : u3.inp.rst = false := by rw [inp3]; exact run
  have run4 : u4.inp.rst = false := by rw [inp4]; exact run
  have run5 : u5.inp.rst = false := by rw [inp5]; exact run
  obtain ⟨status1, held1⟩ := stage1_status run h1
  have variant1 : u1.variant = s.variant := (stage1_receiver run h1).variant
  have later : StatusFrame u2 u :=
    (stage3_status h3).trans ((stage4_status run3 h4).trans ((stage5_status run4 h5).trans (stage6_status run5 h6)))
  have changed2 : u2.status ≠ u1.status := by
    rw [← later.status, status1]
    exact changed
  obtain ⟨held, change⟩ := stage2_change run1 h2 changed2
  obtain ⟨st, store, transition⟩ := change.of_frame later
  rw [variant1] at store transition
  rw [status1] at transition
  exact ⟨held1 ▸ held, st, store, transition⟩

/-- Settles O54. Of a cycle's stages only DECODE's writes the status; of the other rows none does. -/
theorem statusWriters : Obligations.StatusWriters := by
  refine ⟨fun s t f run stepped changed => ?_, fun s t i row noReset noDecode => exec_status_of_kRow row noReset noDecode⟩
  rw [exec_inWord] at stepped
  obtain ⟨held, st, store, transition⟩ := execInWord_change run stepped changed
  exact ⟨held, st, store, transition⟩

end Sys2Proof.Machine
end

section
/-! SUPPORT. The command port (45_command_encoder.md rules R201, R202) and the command encoder (rule R203). -/

namespace Sys2Proof.Machine

/-! ## Arms of the dispatch -/

theorem exec_cmdAccept (s : State) : exec .cmdAccept s = execCmdAccept s := rfl
theorem exec_cmdReject (s : State) : exec .cmdReject s = execCmdReject s := rfl
theorem exec_txBuild (code : Byte) (s : State) : exec (.txBuild code) s = execTxBuild code s := rfl

/-! ## The command port -/

/-- A request outside reset is accepted exactly where no command is pending, whatever `tx_state` is. -/
theorem firesK_cmdAccept_of_request {s : State} (run : s.inp.rst = false) (asked : s.inp.cmdValid = true) :
    firesK .cmdAccept s = !s.cpValid := by
  simp [firesK, kPattern, kBit, run, asked]

/-- A request outside reset is rejected exactly where a command is pending. -/
theorem firesK_cmdReject_of_request {s : State} (run : s.inp.rst = false) (asked : s.inp.cmdValid = true) :
    firesK .cmdReject s = s.cpValid := by
  simp [firesK, kPattern, kBit, run, asked]

/-- Settles O35: `cp_valid` alone decides which of the two rows a request selects, and each row is one update. -/
theorem commandPortResult : Obligations.CommandPortResult := by
  intro s run asked
  constructor
  · intro free
    have fires : firesK .cmdAccept s = true := by rw [firesK_cmdAccept_of_request run asked, free, Bool.not_false]
    rw [exec_cmdAccept, execCmdAccept, whenK_of_fires fires]
    rfl
  · intro pending
    have fires : firesK .cmdReject s = true := by rw [firesK_cmdReject_of_request run asked, pending]
    rw [exec_cmdReject, execCmdReject, whenK_of_fires fires]
    rfl

/-! ## The command encoder -/

/-- The header, then the key code bit by bit. -/
theorem commandBody_eq (v : Variant) (code : Byte) : commandBody v code =
    v.hdr ++ [code.getLsbD 0, code.getLsbD 1, code.getLsbD 2, code.getLsbD 3, code.getLsbD 4, code.getLsbD 5,
      code.getLsbD 6, code.getLsbD 7] := rfl

/-- What is sent in front of the trailer: the body, through STUFF where stuffing is enabled. -/
def sentBody (v : Variant) (code : Byte) : Bits :=
  if v.stuffEn then stuff v.run (commandBody v code) else commandBody v code

theorem txBuild_eq (v : Variant) (code : Byte) : txBuild v code = sentBody v code ++ v.flag ++ [false] := rfl

theorem txBuild_length (v : Variant) (code : Byte) : (txBuild v code).length = (sentBody v code).length + v.n + 1 := by
  rw [txBuild_eq, List.length_append, List.length_append, List.length_singleton, Variant.n]

/-- Settles O36: the row's value is the transmit sequence, which the transmit buffer of a well-formed Variant holds. -/
theorem txBuildResult : Obligations.TxBuildResult := by
  intro s code v body sent
  have stuffed : sent = sentBody v code := by simp only [sent, body, sentBody, commandBody_eq]
  rw [stuffed, ← txBuild_eq]
  exact ⟨exec_txBuild code s, txBuild_length v code, fun wf => txBuild_length_le wf code⟩

end Sys2Proof.Machine
end

section
/-! SUPPORT. The transmitter's operations one by one, each as its update where its row is selected (46 rules R216 to R224). -/

namespace Sys2Proof.Machine

/-! ## Arms of the dispatch -/

theorem exec_txLoad (s : State) : exec .txLoad s = execTxLoad s := rfl
theorem exec_txWaitWindow (s : State) : exec .txWaitWindow s = execTxWaitWindow s := rfl
theorem exec_txWinTimeout (s : State) : exec .txWinTimeout s = execTxWinTimeout s := rfl
theorem exec_txAdvance (s : State) : exec .txAdvance s = execTxAdvance s := rfl
theorem exec_txRelease (s : State) : exec .txRelease s = execTxRelease s := rfl
theorem exec_txStallL (s : State) : exec .txStallL s = execTxStallL s := rfl
theorem exec_txStallH (s : State) : exec .txStallH s = execTxStallH s := rfl
theorem exec_txClkTimeoutL (s : State) : exec .txClkTimeoutL s = execTxClkTimeoutL s := rfl
theorem exec_txClkTimeoutH (s : State) : exec .txClkTimeoutH s = execTxClkTimeoutH s := rfl

/-! ## Waiting for the window -/

/-- Settles O37. -/
theorem txLoadResult : Obligations.TxLoadResult := by
  intro s run idle pending window
  have fires : firesK .txLoad s = true := by simp [firesK, kPattern, kBit, run, idle, pending, window]
  rw [exec_txLoad, execTxLoad, whenK_of_fires fires, loadTx]

/-- Without a quiet window the bound on `wt_cnt` alone chooses between the two rows of a pending command. -/
theorem firesK_of_closed_window {s : State} (run : s.inp.rst = false) (idle : s.txState = .idle)
    (pending : s.cpValid = true) (closed : s.txw = false) :
    (firesK .txWaitWindow s = true ↔ s.wtCnt + 1 < s.variant.windowTimeout)
      ∧ (firesK .txWinTimeout s = true ↔ s.variant.windowTimeout ≤ s.wtCnt + 1) := by
  simp [firesK, kPattern, kBit, run, idle, pending, closed]

/-- Settles O38. -/
theorem txWindowWaitResult : Obligations.TxWindowWaitResult := by
  intro s run idle pending closed
  obtain ⟨wait, late⟩ := firesK_of_closed_window run idle pending closed
  constructor
  · intro more
    rw [exec_txWaitWindow, execTxWaitWindow, whenK_of_fires (wait.mpr more), waitWindow]
  · intro bound
    rw [exec_txWinTimeout, execTxWinTimeout, whenK_of_fires (late.mpr bound)]
    rfl

/-! ## The bit loop -/

/-- Settles O39: inside the buffer the bit read is the bit `tx_idx`. -/
theorem txDriveResult : Obligations.TxDriveResult := by
  intro s inRange run low clock
  have fires : firesK .txDrive s = true := by simp [firesK, kPattern, kBit, run, low, clock]
  have bit : memBit s.txb s.txIdx = some s.txb[s.txIdx] := memBit_eq_some.mpr ⟨inRange, rfl⟩
  rw [exec_txDrive, execTxDrive, whenK_of_fires fires, bit]
  rfl

/-- In a high phase the last bit alone chooses between going on and the release. -/
theorem firesK_of_high_phase {s : State} (run : s.inp.rst = false) (high : s.txState = .waitHigh)
    (clock : s.inp.pclk = true) :
    (firesK .txAdvance s = true ↔ s.txIdx + 1 ≠ s.txb.length)
      ∧ (firesK .txRelease s = true ↔ s.txIdx + 1 = s.txb.length) := by
  simp [firesK, kPattern, kBit, run, high, clock]

/-- Settles O40. -/
theorem txAdvanceAndReleaseResult : Obligations.TxAdvanceAndReleaseResult := by
  intro s run high clock
  obtain ⟨advance, release⟩ := firesK_of_high_phase run high clock
  constructor
  · intro more
    rw [exec_txAdvance, execTxAdvance, whenK_of_fires (advance.mpr more.ne), advanceTx]
  · intro last
    rw [exec_txRelease, execTxRelease, whenK_of_fires (release.mpr last)]
    rfl

/-! ## Clock stall -/

/-- While the low level is awaited and not seen, the bound on `ct_cnt` chooses between stall and timeout. -/
theorem firesK_of_stalled_low {s : State} (run : s.inp.rst = false) (low : s.txState = .waitLow)
    (clock : s.inp.pclk = true) :
    (firesK .txStallL s = true ↔ s.ctCnt + 1 < s.variant.clkTimeout)
      ∧ (firesK .txClkTimeoutL s = true ↔ s.variant.clkTimeout ≤ s.ctCnt + 1) := by
  simp [firesK, kPattern, kBit, run, low, clock]

/-- As `firesK_of_stalled_low`, while the high level is awaited. -/
theorem firesK_of_stalled_high {s : State} (run : s.inp.rst = false) (high : s.txState = .waitHigh)
    (clock : s.inp.pclk = false) :
    (firesK .txStallH s = true ↔ s.ctCnt + 1 < s.variant.clkTimeout)
      ∧ (firesK .txClkTimeoutH s = true ↔ s.variant.clkTimeout ≤ s.ctCnt + 1) := by
  simp [firesK, kPattern, kBit, run, high, clock]

/-- Settles O41: the two waits have rows of their own with the same two updates. -/
theorem txStallAndTimeoutResult : Obligations.TxStallAndTimeoutResult := by
  intro s run stalled aborted
  have stall : stallTx s = stalled := rfl
  have abort : raise .clockTimeout s = aborted := rfl
  constructor
  · intro low clock
    obtain ⟨stalls, late⟩ := firesK_of_stalled_low run low clock
    constructor
    · intro more
      rw [exec_txStallL, execTxStallL, whenK_of_fires (stalls.mpr more), stall]
    · intro bound
      rw [exec_txClkTimeoutL, execTxClkTimeoutL, whenK_of_fires (late.mpr bound), abort]
  · intro high clock
    obtain ⟨stalls, late⟩ := firesK_of_stalled_high run high clock
    constructor
    · intro more
      rw [exec_txStallH, execTxStallH, whenK_of_fires (stalls.mpr more), stall]
    · intro bound
      rw [exec_txClkTimeoutH, execTxClkTimeoutH, whenK_of_fires (late.mpr bound), abort]

end Sys2Proof.Machine
end

section
/-! SUPPORT. A cycle seen from the transmitter (46 rules R226, R227): what stages 1 to 4 hand to stage 5, what stage 6 leaves of
its result, and the four turns that the line and the transmit buffer can take. -/

namespace Sys2Proof.Machine

/-! ## Around stage 5 -/

theorem TransmitterFrame.trans {s t u : State} (first : TransmitterFrame s t) (second : TransmitterFrame t u) :
    TransmitterFrame s u where
  variant := second.variant.trans first.variant
  txState := second.txState.trans first.txState
  txIdx := second.txIdx.trans first.txIdx
  txb := second.txb.trans first.txb
  ctCnt := second.ctCnt.trans first.ctCnt
  wtCnt := second.wtCnt.trans first.wtCnt
  pdataO := second.pdataO.trans first.pdataO
  pdataOe := second.pdataOe.trans first.pdataOe

/-- The code that stage 5 finds pending in a cycle of `f` from `s`: a code already pending stays (45 rule R202). -/
def pendingCode (f : InWord) (s : State) : Byte := if s.cpValid then s.cpCode else f.cmdCode

/-- Stage 5 of a cycle of `f` from `s` starts in `u`. -/
structure Stage5Start (f : InWord) (s u : State) : Prop where
  frame : TransmitterFrame s u
  inp : u.inp = f
  pending : u.cpValid = (s.cpValid || f.cmdValid)
  code : u.cpValid = true → u.cpCode = pendingCode f s

/-- Stage 4 makes a request pending where none is, with the code on the port. -/
theorem stage4_pending {s t : State} (run : s.inp.rst = false) (h : stage4 s = .next t) :
    t.cpValid = (s.cpValid || s.inp.cmdValid) ∧ (t.cpValid = true → t.cpCode = pendingCode s.inp s) := by
  rw [stage4_eq run] at h
  cases h
  unfold pendingCode
  cases asked : s.inp.cmdValid <;> cases pending : s.cpValid <;> simp [pending]

/-- A cycle without reset, cut at stage 5: the transmitter's registers reach it from the cycle's start, and what it leaves
of the command side and of `txw` stands at the cycle's end. -/
theorem execInWord_stage5 {f : InWord} {s t : State} (run : f.rst = false) (h : execInWord f s = .next t) :
    ∃ u v, Stage5Start f s u ∧ stage5 u = .next v ∧ CommandFrame v t ∧ t.txw = v.txw := by
  obtain ⟨e, stages, rfl⟩ := execInWord_stages run h
  obtain ⟨u1, u2, u3, u4, u5, ⟨h1, h2, h3, h4, h5, h6⟩, inp1, inp2, inp3, inp4, inp5⟩ := stages_chain run stages
  have run3 : u3.inp.rst = false := by rw [inp3]; exact run
  have run5 : u5.inp.rst = false := by rw [inp5]; exact run
  have begun : TransmitterFrame s (beginCycle f s) := ⟨rfl, rfl, rfl, rfl, rfl, le_rfl, rfl, rfl⟩
  have frame : TransmitterFrame s u4 :=
    begun.trans <| (stage1_transmitter run h1).trans <| (stage2_transmitter h2).trans <|
      (stage3_transmitter h3).trans (stage4_transmitter run3 h4)
  have command : CommandFrame (beginCycle f s) u3 :=
    (stage1_command run h1).1.trans <| (stage2_frame h2 : DecoderFrame u1 u2).command.1.trans
      (stage3_frame h3 : SamplerFrame u2 u3).command.1
  have same : pendingCode u3.inp u3 = pendingCode f s := by
    rw [pendingCode, inp3, command.cpValid, command.cpCode]
    rfl
  obtain ⟨pending, code⟩ := stage4_pending run3 h4
  refine ⟨u4, u5, ⟨frame, inp4, ?_, fun taken => (code taken).trans same⟩, h5, ?_, (stage6_receiver run5 h6).txw⟩
  · rw [pending, command.cpValid, inp3]
    rfl
  · exact (stage6_command run5 h6).1.trans ⟨rfl, rfl, rfl, rfl, rfl, rfl, rfl, rfl, rfl⟩

/-- TX_LOAD takes a command that is pending. -/
theorem cpValid_of_stage5_loads {s : State} {seq : Bits} (run : s.inp.rst = false) (idle : s.txState = .idle)
    (h : stage5 s = .next (loadTx seq s)) : s.cpValid = true := by
  by_contra empty
  rw [stage5_of_resting run ⟨idle, Bool.not_eq_true _ ▸ empty⟩] at h
  have state : s.txState = .waitLow := congrArg State.txState (Host.Outcome.next.inj h)
  simp [idle] at state

/-- TX_DRIVE changes the line in a low phase only. -/
theorem pclk_of_stage5_drives {s : State} {b : Bool} (run : s.inp.rst = false) (low : s.txState = .waitLow)
    (h : stage5 s = .next (driveLine b s)) : s.inp.pclk = false := by
  by_contra clock
  rw [stage5_waitLow run low, if_pos (Bool.not_eq_false _ ▸ clock)] at h
  have state := congrArg State.txState (Host.Outcome.next.inj h)
  split at state
  · simp [low] at state
  · simp at state

/-! ## The turns of the line and the buffer -/

/-- What a cycle of `f` from `s` does to the line and the transmit buffer: it leaves both, loads the buffer of an idle
transmitter, drives a bit in a low phase, or ends the transmission. -/
inductive LineTurn (f : InWord) (s t : State) : Prop
  | holds (state : t.txState = .idle ↔ s.txState = .idle) (buffer : t.txb = s.txb) (drive : t.pdataOe = s.pdataOe)
      (level : t.pdataO = s.pdataO)
  | loads (idle : s.txState = .idle) (asked : s.cpValid = true ∨ f.cmdValid = true) (state : t.txState = .waitLow)
      (window : t.txw = true) (first : t.txIdx = 0) (taken : t.cpValid = false)
      (buffer : t.txb = txBuild s.variant (pendingCode f s)) (drive : t.pdataOe = s.pdataOe) (level : t.pdataO = s.pdataO)
  | drives (low : s.txState = .waitLow) (clock : f.pclk = false) (state : t.txState = .waitHigh) (buffer : t.txb = s.txb)
  | ends (busy : s.txState ≠ .idle) (idle : t.txState = .idle) (buffer : t.txb = []) (drive : t.pdataOe = false)

/-- Each operation of 46 rule R215's table is one of the four turns. -/
theorem execInWord_lineTurn {f : InWord} {s t : State} (run : f.rst = false) (h : execInWord f s = .next t) :
    LineTurn f s t := by
  obtain ⟨u, v, ⟨frame, inp, pending, code⟩, turn, after, window⟩ := execInWord_stage5 run h
  have run5 : u.inp.rst = false := by rw [inp, run]
  have holds (state : v.txState = .idle ↔ u.txState = .idle) (buffer : v.txb = u.txb) (drive : v.pdataOe = u.pdataOe)
      (level : v.pdataO = u.pdataO) : LineTurn f s t :=
    .holds (by rw [after.txState, state, frame.txState]) (by rw [after.txb, buffer, frame.txb])
      (by rw [after.pdataOe, drive, frame.pdataOe]) (by rw [after.pdataO, level, frame.pdataO])
  have ends (busy : u.txState ≠ .idle) (idle : v.txState = .idle) (buffer : v.txb = []) (drive : v.pdataOe = false) :
      LineTurn f s t :=
    .ends (frame.txState ▸ busy) (after.txState.trans idle) (after.txb.trans buffer) (after.pdataOe.trans drive)
  cases stage5_end run5 turn with
  | rests | waits | windowTimeout | stalls => exact holds Iff.rfl rfl rfl rfl
  | advances high => exact holds (by simp [high]) rfl rfl rfl
  | releases high => exact ends (by simp [high]) rfl rfl rfl
  | clockTimeout busy => exact ends busy rfl rfl rfl
  | drives low b =>
    exact .drives (frame.txState ▸ low) (inp ▸ pclk_of_stage5_drives run5 low turn) after.txState
      (after.txb.trans frame.txb)
  | loads idle quiet =>
    have taken : u.cpValid = true := cpValid_of_stage5_loads run5 idle turn
    have built : t.txb = txBuild u.variant u.cpCode := after.txb
    rw [frame.variant, code taken] at built
    exact .loads (frame.txState ▸ idle) (Bool.or_eq_true_iff.mp (pending ▸ taken)) after.txState (window.trans quiet)
      after.txIdx after.cpValid built (after.pdataOe.trans frame.pdataOe) (after.pdataO.trans frame.pdataO)

/-- Settles O52: which of the four turns can change the line, and which can leave `IDLE`. -/
theorem lineOwnership : Obligations.LineOwnership := by
  intro s t f run stepped
  rw [exec_inWord] at stepped
  cases execInWord_lineTurn run stepped with
  | holds state buffer drive level =>
    exact ⟨fun _ => ⟨drive, level⟩, fun idle busy => absurd (state.mpr idle) busy,
      fun off on => by simp [drive, off] at on, fun changed => absurd level changed⟩
  | loads idle asked state window first taken buffer drive level =>
    exact ⟨fun _ => ⟨drive, level⟩, fun _ _ => ⟨state, window, first, taken, asked⟩,
      fun off on => by simp [drive, off] at on, fun changed => absurd level changed⟩
  | drives low clock =>
    exact ⟨fun idle => by simp [low] at idle, fun idle => by simp [low] at idle, fun _ _ => ⟨low, clock⟩,
      fun _ => .inl ⟨low, clock⟩⟩
  | ends busy idle buffer drive =>
    exact ⟨fun resting => absurd resting busy, fun resting => absurd resting busy, fun _ on => by simp [drive] at on,
      fun _ => .inr ⟨busy, idle⟩⟩

/-- Settles O53: only a load writes another sequence into the buffer, and only the end of a transmission empties it. -/
theorem inFlightImmutable : Obligations.InFlightImmutable := by
  intro s t f run stepped
  rw [exec_inWord] at stepped
  cases execInWord_lineTurn run stepped with
  | holds state buffer =>
    exact ⟨fun busy => .inl ⟨mt state.mp busy, buffer⟩, fun idle => .inl ⟨state.mpr idle, buffer⟩⟩
  | loads idle asked state window first taken buffer =>
    exact ⟨fun busy => absurd idle busy, fun _ => .inr ⟨state, buffer⟩⟩
  | drives low clock state buffer =>
    exact ⟨fun _ => .inl ⟨by simp [state], buffer⟩, fun idle => by simp [low] at idle⟩
  | ends busy idle buffer =>
    exact ⟨fun _ => .inr ⟨idle, buffer⟩, fun resting => absurd resting busy⟩

end Sys2Proof.Machine
end

section
/-! SUPPORT. Every transmission ends (46 rule R226 (vi)): a good state always steps, and each step in flight uses up one of the
cycles that the remaining waits can last. -/

namespace Sys2Proof.Machine

/-! ## Progress -/

/-- A good state is none of those that 93 U3 excludes. -/
theorem Inv.inRange {s : State} (inv : Inv s) : InRange s where
  ageLow := inv.sampler.ageLow
  ageHigh := inv.sampler.ageHigh
  window := inv.sampler.window
  sending busy := (inv.transmitter.sending busy).1
  outside := inv.sampler.outside

theorem execInWord_next_of_inv {s : State} (inv : Inv s) (f : InWord) : ∃ t, execInWord f s = .next t := by
  cases rst : f.rst with
  | true => exact ⟨_, execInWord_of_rst inv.variantOk rst⟩
  | false =>
    obtain ⟨t, answered, -⟩ := execInWord_next inv.variantOk rst inv.inRange
    exact ⟨t, answered⟩

/-! ## The cycles that remain -/

/-- The waits of the transmission in flight that follow the current one: two for each later bit, and that for the high level
of this bit while its low level is awaited. -/
def waitsAfter (s : State) : Nat :=
  2 * (s.txb.length - (s.txIdx + 1)) + if s.txState = .waitLow then 1 else 0

/-- The cycles after which the transmission in flight has ended at the latest. -/
def cyclesLeft (s : State) : Nat :=
  if s.txState = .idle then 0
  else waitsAfter s * s.variant.clkTimeout + (s.variant.clkTimeout - s.ctCnt)

theorem cyclesLeft_of_idle {s : State} (idle : s.txState = .idle) : cyclesLeft s = 0 := if_pos idle

theorem cyclesLeft_of_busy {s : State} (busy : s.txState ≠ .idle) :
    cyclesLeft s = waitsAfter s * s.variant.clkTimeout + (s.variant.clkTimeout - s.ctCnt) := if_neg busy

theorem cyclesLeft_congr {s t : State} (variant : t.variant = s.variant) (txState : t.txState = s.txState)
    (txIdx : t.txIdx = s.txIdx) (txb : t.txb = s.txb) (ctCnt : t.ctCnt = s.ctCnt) : cyclesLeft t = cyclesLeft s := by
  simp only [cyclesLeft, waitsAfter, variant, txState, txIdx, txb, ctCnt]

/-- The bound of 46 rule R226 (vi): `2 * tx_len` waits of at most `CLK_TIMEOUT` cycles. -/
theorem cyclesLeft_le {s : State} (busy : s.txState ≠ .idle) (inBuffer : s.txIdx < s.txb.length) :
    cyclesLeft s ≤ 2 * s.txb.length * s.variant.clkTimeout := by
  have waits : waitsAfter s + 1 ≤ 2 * s.txb.length := by
    unfold waitsAfter
    split <;> omega
  calc
    cyclesLeft s = waitsAfter s * s.variant.clkTimeout + (s.variant.clkTimeout - s.ctCnt) := cyclesLeft_of_busy busy
    _ ≤ (waitsAfter s + 1) * s.variant.clkTimeout := by rw [Nat.succ_mul]; omega
    _ ≤ 2 * s.txb.length * s.variant.clkTimeout := Nat.mul_le_mul_right _ waits

/-- An operation that ends a wait and begins the next one leaves fewer cycles, whatever was left of the old wait. -/
theorem cyclesLeft_lt_of_next_wait {s t : State} (busy : s.txState ≠ .idle) (going : t.txState ≠ .idle)
    (variant : t.variant = s.variant) (waits : waitsAfter t + 1 = waitsAfter s)
    (clock : s.ctCnt < s.variant.clkTimeout) (fresh : t.ctCnt = 0) : cyclesLeft t < cyclesLeft s := by
  rw [cyclesLeft_of_busy going, cyclesLeft_of_busy busy, variant, fresh, ← waits, Nat.succ_mul]
  omega

/-- In flight every operation of stage 5 uses up a cycle at least. -/
theorem Stage5End.cyclesLeft_lt {s t : State} (ends : Stage5End s t) (busy : s.txState ≠ .idle)
    (inBuffer : s.txIdx < s.txb.length) (clock : s.ctCnt < s.variant.clkTimeout) : cyclesLeft t < cyclesLeft s := by
  have remaining : 0 < cyclesLeft s := by
    rw [cyclesLeft_of_busy busy]
    omega
  cases ends with
  | rests idle | loads idle | waits idle | windowTimeout idle => exact absurd idle busy
  | drives low b =>
    exact cyclesLeft_lt_of_next_wait busy nofun rfl (by simp [waitsAfter, low]) clock rfl
  | advances high more =>
    refine cyclesLeft_lt_of_next_wait busy nofun rfl ?_ clock rfl
    simp only [waitsAfter, advanceTx_txb, advanceTx_txIdx, advanceTx_txState, high, if_true, reduceCtorEq, if_false]
    omega
  | releases | clockTimeout => exact (cyclesLeft_of_idle rfl).trans_lt remaining
  | stalls _ more =>
    rw [cyclesLeft_of_busy (s := stallTx s) busy, cyclesLeft_of_busy busy]
    change waitsAfter s * s.variant.clkTimeout + (s.variant.clkTimeout - (s.ctCnt + 1)) < _
    omega

/-- A cycle in flight uses up a cycle at least, whatever the inputs are: RESET ends the transmission at once. -/
theorem execInWord_cyclesLeft_lt {f : InWord} {s t : State} (inv : Inv s) (busy : s.txState ≠ .idle)
    (h : execInWord f s = .next t) : cyclesLeft t < cyclesLeft s := by
  obtain ⟨inBuffer, -⟩ := inv.transmitter.sending busy
  have clock := inv.transmitter.clock
  cases rst : f.rst with
  | true =>
    rw [execInWord_of_rst inv.variantOk rst] at h
    cases h
    rw [cyclesLeft_of_idle rfl, cyclesLeft_of_busy busy]
    omega
  | false =>
    obtain ⟨u, v, ⟨frame, inp, -, -⟩, turn, after, -⟩ := execInWord_stage5 rst h
    have run5 : u.inp.rst = false := by rw [inp, rst]
    have variant : t.variant = v.variant := by
      rw [execInWord_variant h, (stage5_receiver run5 turn).variant, frame.variant]
    calc
      cyclesLeft t = cyclesLeft v := cyclesLeft_congr variant after.txState after.txIdx after.txb after.ctCnt
      _ < cyclesLeft u := (stage5_end run5 turn).cyclesLeft_lt (frame.txState ▸ busy)
        (by rw [frame.txIdx, frame.txb]; exact inBuffer) (by rw [frame.ctCnt, frame.variant]; exact clock)
      _ = cyclesLeft s := cyclesLeft_congr frame.variant frame.txState frame.txIdx frame.txb frame.ctCnt

/-- A step from a good state in flight answers a good state with fewer cycles left. -/
theorem step_cyclesLeft_lt {s : State} (inv : Inv s) (busy : s.txState ≠ .idle) :
    ∃ t, step s = .next t ∧ Inv t ∧ cyclesLeft t < cyclesLeft s := by
  obtain ⟨f, stim, drawn, cycle⟩ := step_eq_execInWord s
  have fetched : Inv { s with stim := stim, drawn := drawn } := inv.of_model_fields rfl
  obtain ⟨t, answered⟩ := execInWord_next_of_inv fetched f
  have fewer := execInWord_cyclesLeft_lt fetched busy answered
  exact ⟨t, cycle.trans answered, execInWord_inv fetched answered,
    fewer.trans_eq (cyclesLeft_congr rfl rfl rfl rfl rfl)⟩

/-- From a good state the transmitter is idle after at most as many steps as cycles are left. -/
theorem exists_idle_of_cyclesLeft_le {n : Nat} {s : State} (inv : Inv s) (left : cyclesLeft s ≤ n) :
    ∃ k t, k ≤ n ∧ runSteps k s = .next t ∧ t.txState = .idle := by
  induction n generalizing s with
  | zero =>
    refine ⟨0, s, le_rfl, rfl, ?_⟩
    by_contra busy
    obtain ⟨t, -, -, fewer⟩ := step_cyclesLeft_lt inv busy
    omega
  | succ n ih =>
    by_cases idle : s.txState = .idle
    · exact ⟨0, s, Nat.zero_le _, rfl, idle⟩
    · obtain ⟨u, first, good, fewer⟩ := step_cyclesLeft_lt inv idle
      obtain ⟨k, t, bound, rest, ended⟩ := ih good (by omega)
      exact ⟨k + 1, t, by omega, by rw [runSteps, first, andThen_next, rest], ended⟩

/-- Settles O51: the waits that can remain, each of at most `CLK_TIMEOUT` cycles, are used up step by step. -/
theorem transmissionEnds : Obligations.TransmissionEnds := by
  intro s inv busy
  obtain ⟨inBuffer, -⟩ := inv.transmitter.sending busy
  exact exists_idle_of_cyclesLeft_le inv (cyclesLeft_le busy inBuffer)

end Sys2Proof.Machine
end

section
/-! SUPPORT. The reset of the block and the errors' acknowledge (70 rule R280, 60 rule R262), and that a good state steps. -/

namespace Sys2Proof.Machine

/-! ## Arms of the dispatch -/

theorem exec_reset (s : State) : exec .reset s = execReset s := rfl
theorem exec_errClear (s : State) : exec .errClear s = execErrClear s := rfl

/-! ## Reset -/

/-- Settles O32: RESET's updates write every register, and its cycle clears the input levels and the wires. -/
theorem resetLeaves : Obligations.ResetLeaves := by
  intro s
  refine ⟨fun rst => ?_, fun f rst wf => ?_⟩
  · rw [exec_reset, execReset_of_rst rst]
    rfl
  · rw [exec_inWord, execInWord_of_rst wf rst]
    rfl

/-- The state after reset is one that RESET leaves: its own. -/
theorem afterReset_inv {v : Variant} (wf : v.wf = true) (st : AlarmStatus) : Inv (State.afterReset v st) :=
  inv_of_reset (s := State.afterReset v st) wf st

/-- Settles O48: `State.reset` is the state after reset of a well-formed Variant. -/
theorem invAtReset : Obligations.InvAtReset :=
  ⟨fun _ st wf => afterReset_inv wf st, afterReset_inv (by decide) .disarmed⟩

/-! ## Progress -/

/-- Settles O49: a step is a cycle, and from a good state every input word's cycle completes. -/
theorem goodStatesStep : Obligations.GoodStatesStep := by
  intro s inv
  obtain ⟨f, stim, drawn, cycle⟩ := step_eq_execInWord s
  have fetched : Inv { s with stim := stim, drawn := drawn } := inv.of_model_fields rfl
  obtain ⟨t, answered⟩ := execInWord_next_of_inv fetched f
  exact ⟨t, cycle.trans answered⟩

/-! ## The acknowledge -/

theorem execErrClear_of_clear {s : State} (run : s.inp.rst = false) (clear : s.inp.errClr = true) :
    execErrClear s = .next (acknowledge s) :=
  whenK_of_fires (by simp [firesK, kPattern, kBit, run, clear]) _

/-- Settles O10: of `ERR` before a clearing cycle nothing is left in the bits of `stickyErrors`. -/
theorem errClearResult : Obligations.ErrClearResult := by
  refine ⟨fun s run clear => (exec_errClear s).trans (execErrClear_of_clear run clear), fun s t f run clear stepped => ?_⟩
  obtain ⟨clock, window, store, frame⟩ := (stickyErrors s t f stepped).2 run
  simp only [clear, Bool.not_true, Bool.and_false, Bool.false_or] at clock window store frame
  exact ⟨by rw [clock, beq_iff_eq], by rw [window, beq_iff_eq], by rw [store], frame⟩

end Sys2Proof.Machine
end

section
/-! SUPPORT. A lost flag is made good (70 rule R290): samples that complete no flag count the age of a frame up, and beyond `C`
the receiver leaves the frame. -/

namespace Sys2Proof.Machine

/-- `t` comes of `s` by `n` samples without a flag: a receiver that is still inside a frame has been inside all along, and has
counted every sample. -/
structure Unflagged (n : Nat) (s t : State) : Prop where
  variant : t.variant = s.variant
  idle : t.txState = .idle
  recent : t.age ≤ t.variant.cap
  inside : t.inside = true → s.inside = true ∧ t.age = s.age + n

theorem Unflagged.refl {s : State} (idle : s.txState = .idle) (recent : s.age ≤ s.variant.cap) : Unflagged 0 s s :=
  ⟨rfl, idle, recent, fun inside => ⟨inside, by simp⟩⟩

/-- One sample, then `n` more. -/
theorem Unflagged.succ {n : Nat} {s t u : State} (first : Unflagged 1 s t) (rest : Unflagged n t u) :
    Unflagged (n + 1) s u where
  variant := rest.variant.trans first.variant
  idle := rest.idle
  recent := rest.recent
  inside inside := by
    obtain ⟨between, counted⟩ := rest.inside inside
    obtain ⟨start, age⟩ := first.inside between
    exact ⟨start, by omega⟩

theorem atSample_sampling {s : State} (idle : s.txState = .idle) (d : Bool) : Sampling (atSample d s) := ⟨rfl, rfl, idle⟩

theorem quietSample_eq_some {d : Bool} {s t : State} :
    quietSample d s = some t ↔ execSample (atSample d s) = .next t ∧ t.net.hit = false := by
  rw [quietSample, exec_sample]
  cases execSample (atSample d s) with
  | next u =>
    have same (answered : u = t) : t.net.hit = u.net.hit := answered ▸ rfl
    cases hit : u.net.hit <;> simpa [hit] using same
  | fault e => simp
  | refused e => simp

/-- Of the boundary detector's five ends a sample without a flag has two: SYNC_RECOVER, or the sample is only counted. -/
theorem quietSample_unflagged {d : Bool} {s t : State} (idle : s.txState = .idle) (h : quietSample d s = some t) :
    Unflagged 1 s t := by
  obtain ⟨answered, miss⟩ := quietSample_eq_some.mp h
  obtain ⟨u, ends, rfl⟩ := execSample_end (atSample_sampling idle d) answered
  cases ends with
  | published hit | dropped hit | opened hit => exact absurd (hit.symm.trans miss) (by decide)
  | lost => exact ⟨rfl, idle, by simp, nofun⟩
  | counted _ recent => exact ⟨rfl, idle, recent, fun inside => ⟨inside, rfl⟩⟩

theorem quietSamples_unflagged {ds : Bits} {s t : State} (idle : s.txState = .idle) (recent : s.age ≤ s.variant.cap)
    (h : quietSamples ds s = some t) : Unflagged ds.length s t := by
  induction ds generalizing s with
  | nil =>
    cases h
    exact .refl idle recent
  | cons d ds ih =>
    obtain ⟨u, first, rest⟩ := Option.bind_eq_some_iff.mp h
    have counted := quietSample_unflagged idle first
    exact counted.succ (ih counted.idle counted.recent rest)

/-- Settles O20: a receiver still inside its frame would have counted its age beyond `C`. -/
theorem lostSyncRecovers : Obligations.LostSyncRecovers := by
  intro s t ds idle _ recent counted long quiet
  have run := quietSamples_unflagged idle recent quiet
  by_contra still
  obtain ⟨inside, age⟩ := run.inside (Bool.not_eq_false _ ▸ still)
  have start := counted inside
  have bound := run.recent
  rw [run.variant] at bound
  omega

end Sys2Proof.Machine
end

section
/-! SUPPORT. The cycle as the table of 30 rule R99: each stage of 48 rule R240 fires what its exclusive group selects. -/

namespace Sys2Proof.Machine

/-! ## A group and its selection -/

/-- An operation of a group that is selected is the one that fires: no other of its group is. -/
theorem fireGroup_of_fires {g : List Instr} {i : Instr} {s : State} (group : g ∈ stageGroups) (member : i ∈ g)
    (fires : firesK i s = true) : fireGroup g s = exec i s := by
  have exclusive : g.Pairwise fun i j => ¬(firesK i s = true ∧ firesK j s = true) :=
    (stageGroups_contradict g group).imp fun contradict => not_fires_both contradict s
  have chosen : (g.find? fun i => firesK i s).isSome = true := List.find?_isSome.mpr ⟨i, member, fires⟩
  obtain ⟨j, first⟩ := Option.isSome_iff_exists.mp chosen
  have found : firesK j s = true := List.find?_some (p := fun i => firesK i s) first
  have same : j = i := by
    by_contra other
    have symmetric : Std.Symm fun i j => ¬(firesK i s = true ∧ firesK j s = true) := ⟨fun _ _ => mt And.symm⟩
    exact exclusive.forall (List.mem_of_find?_eq_some first) member other ⟨found, fires⟩
  rw [fireGroup, first, same]

theorem fireGroup_of_silent {g : List Instr} {s : State} (silent : ∀ i ∈ g, firesK i s = false) :
    fireGroup g s = .next s := by
  have none : (g.find? fun i => firesK i s) = none := List.find?_eq_none.mpr fun i member => by simp [silent i member]
  rw [fireGroup, none]

/-- A group all of whose patterns ask for a K bit does nothing where the bit has the other value. -/
theorem fireGroup_of_bit {g : List Instr} {s : State} (b : KBit) (v : Bool) (asks : ∀ i ∈ g, (b, v) ∈ kPattern i)
    (other : kBit s b ≠ v) : fireGroup g s = .next s :=
  fireGroup_of_silent fun i member => Bool.not_eq_true _ ▸ fun fires => other (kBit_of_firesK fires (asks i member))

/-- A row that is a group of its own answers for the group: where it is not selected it changes nothing. -/
theorem fireGroup_singleton {i : Instr} (row : i ∈ kRows) (s : State) : fireGroup [i] s = exec i s := by
  cases fires : firesK i s with
  | true => simp [fireGroup, fires]
  | false =>
    rw [fireGroup_of_silent (by simpa using fires)]
    exact ((unselectedChangesNothing s i).1 row fires).symm

/-! ## The stages as groups -/

theorem stage1_eq_groups (s : State) :
    stage1 s = runAll [fireGroup [.errClear], fireGroup [.edgeDetect]] s := by
  have clear : fireGroup [.errClear] = execErrClear := funext (fireGroup_singleton (by decide))
  have edge : fireGroup [.edgeDetect] = execEdgeDetect := funext (fireGroup_singleton (by decide))
  rw [stage1, clear, edge]

theorem stage2_eq_group {s : State} (run : s.inp.rst = false) : stage2 s = fireGroup [.decode] s := by
  unfold stage2
  split
  · next held =>
    have fires : firesK .decode s = true := by simp [firesK, kPattern, kBit, run, held]
    exact (fireGroup_of_fires (by decide) (by decide) fires).symm
  · next none => exact (fireGroup_of_bit .fsv true (by decide) none).symm

theorem stage3_eq_group {s : State} (run : s.inp.rst = false) : stage3 s = fireGroup [.sample, .sampleSuspend] s := by
  unfold stage3
  split
  · next fall =>
    split
    · next idle =>
      have fires : firesK .sample s = true := firesK_sample_iff.mpr ⟨run, fall, idle⟩
      exact (fireGroup_of_fires (by decide) (by decide) fires).symm
    · next busy =>
      have fires : firesK .sampleSuspend s = true := by simp [firesK, kPattern, kBit, run, fall, busy]
      exact (fireGroup_of_fires (by decide) (by decide) fires).symm
  · next level => exact (fireGroup_of_bit .fall true (by decide) level).symm

theorem stage4_eq_group {s : State} (run : s.inp.rst = false) : stage4 s = fireGroup [.cmdAccept, .cmdReject] s := by
  unfold stage4
  split
  · next asked =>
    split
    · next pending =>
      have fires : firesK .cmdReject s = true := (firesK_cmdReject_of_request run asked).trans pending
      exact (fireGroup_of_fires (by decide) (by decide) fires).symm
    · next free =>
      have fires : firesK .cmdAccept s = true := by simp [firesK_cmdAccept_of_request run asked, free]
      exact (fireGroup_of_fires (by decide) (by decide) fires).symm
  · next unasked => exact (fireGroup_of_bit .cmdv true (by decide) unasked).symm

/-- The branches of stage 5 are the patterns of 46 rule R215's table. -/
theorem stage5_eq_group {s : State} (run : s.inp.rst = false) : stage5 s = fireGroup txRows s := by
  have fire (i : Instr) (row : i ∈ txRows) (fires : firesK i s = true) : exec i s = fireGroup txRows s :=
    (fireGroup_of_fires (by decide) row fires).symm
  unfold stage5
  cases state : s.txState with
  | idle =>
    dsimp only
    split
    · next pending =>
      split
      · next window => exact fire .txLoad (by decide) (by simp [firesK, kPattern, kBit, run, state, pending, window])
      · next closed =>
        obtain ⟨waits, late⟩ := firesK_of_closed_window run state pending (Bool.not_eq_true _ ▸ closed)
        split
        · next more => exact fire .txWaitWindow (by decide) (waits.mpr more)
        · next reached => exact fire .txWinTimeout (by decide) (late.mpr (not_lt.mp reached))
    · next empty =>
      have silent (i : Instr) (row : i ∈ txRows) : firesK i s = false :=
        Bool.not_eq_true _ ▸ fun fires => active_of_txRow_fires row fires ⟨state, Bool.not_eq_true _ ▸ empty⟩
      exact (fireGroup_of_silent silent).symm
  | waitLow =>
    dsimp only
    split
    · next clock =>
      obtain ⟨stalls, late⟩ := firesK_of_stalled_low run state clock
      split
      · next more => exact fire .txStallL (by decide) (stalls.mpr more)
      · next reached => exact fire .txClkTimeoutL (by decide) (late.mpr (not_lt.mp reached))
    · next clock => exact fire .txDrive (by decide) (by simp [firesK, kPattern, kBit, run, state, clock])
  | waitHigh =>
    dsimp only
    split
    · next clock =>
      obtain ⟨advances, releases⟩ := firesK_of_high_phase run state clock
      split
      · next last => exact fire .txRelease (by decide) (releases.mpr last)
      · next more => exact fire .txAdvance (by decide) (advances.mpr more)
    · next clock =>
      obtain ⟨stalls, late⟩ := firesK_of_stalled_high run state (Bool.not_eq_true _ ▸ clock)
      split
      · next more => exact fire .txStallH (by decide) (stalls.mpr more)
      · next reached => exact fire .txClkTimeoutH (by decide) (late.mpr (not_lt.mp reached))

theorem stage6_eq_group {s : State} (run : s.inp.rst = false) : stage6 s = fireGroup [.storeFailLatch] s := by
  unfold stage6
  split
  · next failed =>
    have fires : firesK .storeFailLatch s = true := by simp [firesK, kPattern, kBit, run, failed]
    exact (fireGroup_of_fires (by decide) (by decide) fires).symm
  · next none => exact (fireGroup_of_bit .sfail true (by decide) none).symm

/-! ## The cycle -/

/-- What the stages of a cycle without reset answer, the groups answer in the same order. -/
theorem runAll_groups {s t : State} (run : s.inp.rst = false)
    (h : runAll [stage1, stage2, stage3, stage4, stage5, stage6] s = .next t) :
    runAll (stageGroups.map fireGroup) s = .next t := by
  obtain ⟨u1, u2, u3, u4, u5, ⟨h1, h2, h3, h4, h5, h6⟩, inp1, inp2, inp3, inp4, inp5⟩ := stages_chain run h
  rw [stage1_eq_groups] at h1
  rw [stage2_eq_group (by rw [inp1, run])] at h2
  rw [stage3_eq_group (by rw [inp2, run])] at h3
  rw [stage4_eq_group (by rw [inp3, run])] at h4
  rw [stage5_eq_group (by rw [inp4, run])] at h5
  rw [stage6_eq_group (by rw [inp5, run])] at h6
  change runAll ([fireGroup [.errClear], fireGroup [.edgeDetect]]
    ++ [fireGroup [.decode], fireGroup [.sample, .sampleSuspend], fireGroup [.cmdAccept, .cmdReject], fireGroup txRows,
      fireGroup [.storeFailLatch]]) s = .next t
  rw [runAll_append, h1]
  simp only [runAll_cons, runAll_nil, andThen_next, h2, h3, h4, h5, h6]

/-- Every row but RESET asks for `rst = 0`. -/
theorem eq_reset_of_fires {i : Instr} {s : State} (row : i ∈ kRows) (rst : s.inp.rst = true) (fires : firesK i s = true) :
    i = .reset := by
  have asks : ∀ i ∈ kRows, i ≠ .reset → (KBit.rst, false) ∈ kPattern i := by decide
  by_contra other
  have run : s.inp.rst = false := kBit_of_firesK fires (asks i row other)
  simp [rst] at run

/-- RESET is selected with `rst = 1` and writes its registers. -/
theorem execInWord_eq_reset {f : InWord} {s : State} (wf : s.variant.wf = true) (rst : f.rst = true) :
    ∃ t, exec .reset (beginCycle f s) = .next t ∧ exec (.inWord f) s = .next (endCycle t) :=
  ⟨_, (exec_reset _).trans (execReset_of_rst rst), (exec_inWord f s).trans (execInWord_of_rst wf rst)⟩

/-- Settles O5: with `rst = 1` every other pattern is contradicted; without, each stage is its group's selection. -/
theorem cycleIsTheTable : Obligations.CycleIsTheTable := by
  intro s f wf
  refine ⟨fun rst => ⟨fun i row => eq_reset_of_fires row rst, execInWord_eq_reset wf rst⟩, fun run inSpec => ?_⟩
  obtain ⟨t, answered, -⟩ := execInWord_next wf run (insideSpec_iff.mp inSpec)
  obtain ⟨u, stages, rfl⟩ := execInWord_stages run answered
  exact ⟨u, runAll_groups run stages, (exec_inWord f s).trans answered⟩

end Sys2Proof.Machine
end

section
/-! SUPPORT. The pulses of a cycle (48 rule R243, 00 rule R14): what DECODE can pulse, what the transmitter can report, and the
command port's answer, put together stage by stage. -/

namespace Sys2Proof.Machine

/-! ## DECODE -/

/-- The pulses `p` of a decode stage, where a snapshot is held (`held`) and tracing is enabled (`traces`) or not. -/
structure DecoderPulses (held traces : Bool) (p : Pulses) : Prop where
  cmdResp : p.cmdResp = .noRequest
  txDone : p.txDone = none
  trc : p.trc.isSome = (held && traces)
  reports : held = false → p.zone = none ∧ p.st = none
  stored : p.store.isSome = true → p.st.isSome = true

/-- A frame is read without an answer to a command, a result of a transmission or a trace; its update publishes what it
stores. -/
theorem decoded_pulses {s : State} (silent : s.out = Pulses.zero) :
    (decoded s).out.cmdResp = .noRequest ∧ (decoded s).out.txDone = none ∧ (decoded s).out.trc = none
      ∧ ((decoded s).out.store.isSome = true → (decoded s).out.st.isSome = true) := by
  unfold decoded
  split_ifs <;> simp [updateStatus, zoned, silent, Pulses.zero]

theorem stage2_pulses {s t : State} (run : s.inp.rst = false) (silent : s.out = Pulses.zero) (h : stage2 s = .next t) :
    DecoderPulses s.fsValid s.inp.dbgTraceEn t.out := by
  unfold stage2 at h
  split at h
  · next held =>
    rw [execDecode_of_held run held] at h
    cases h
    have begins : (begun s).out = Pulses.zero := silent
    obtain ⟨cmdResp, txDone, untraced, stored⟩ := decoded_pulses begins
    have enabled : (decoded (begun s)).inp = s.inp := by
      unfold decoded
      split_ifs <;> rfl
    refine ⟨cmdResp, txDone, ?_, fun none => absurd (held.symm.trans none) (by decide), stored⟩
    cases traces : s.inp.dbgTraceEn <;> simp [traced, held, enabled, traces, untraced]
  · next none =>
    cases h
    rw [silent, Bool.eq_false_of_not_eq_true none]
    exact ⟨rfl, rfl, rfl, fun _ => ⟨rfl, rfl⟩, nofun⟩

/-! ## The command port and the transmitter -/

theorem stage4_out {s t : State} (run : s.inp.rst = false) (h : stage4 s = .next t) :
    t.out = { s.out with
      cmdResp := if s.inp.cmdValid then (if s.cpValid then .busy else .accepted) else s.out.cmdResp } := by
  rw [stage4_eq run] at h
  cases h
  split
  · split <;> rfl
  · rfl

/-- The transmitter pulses `tx_done` and nothing else. -/
theorem stage5_out {s t : State} (run : s.inp.rst = false) (h : stage5 s = .next t) :
    t.out = { s.out with txDone := t.out.txDone } := by
  cases stage5_end run h <;> rfl

/-- What the transmitter can report from the state `s`, where a command is pending (`pending`) or not. -/
inductive Reported (s : State) (pending : Bool) : Option TxResult → Prop
  | nothing : Reported s pending none
  | sent (high : s.txState = .waitHigh) (last : s.txIdx + 1 = s.txb.length) : Reported s pending (some .sent)
  | clockTimeout (busy : s.txState ≠ .idle) : Reported s pending (some .clockTimeout)
  | windowTimeout (idle : s.txState = .idle) (asked : pending = true) : Reported s pending (some .windowTimeout)

theorem stage5_reported {s t : State} (run : s.inp.rst = false) (silent : s.out.txDone = none)
    (h : stage5 s = .next t) : Reported s s.cpValid t.out.txDone := by
  have nothing {u : State} (same : u.out.txDone = s.out.txDone) : Reported s s.cpValid u.out.txDone := by
    rw [same, silent]
    exact .nothing
  cases state : s.txState with
  | idle =>
    rw [stage5_idle run state] at h
    cases h
    split
    · next pending =>
      split
      · exact nothing rfl
      · split
        · exact nothing rfl
        · exact .windowTimeout state pending
    · exact nothing rfl
  | waitLow =>
    rw [stage5_waitLow run state] at h
    split at h
    · cases h
      split
      · exact nothing rfl
      · exact .clockTimeout (by simp [state])
    · split at h
      · cases h
        exact nothing rfl
      · cases h
  | waitHigh =>
    rw [stage5_waitHigh run state] at h
    cases h
    split
    · split
      · next last => exact .sent state last
      · exact nothing rfl
    · split
      · exact nothing rfl
      · exact .clockTimeout (by simp [state])

/-- The stages before the transmitter's hand it its registers. -/
theorem Reported.of_frame {s u : State} {pending : Bool} {r : Option TxResult} (reported : Reported u pending r)
    (frame : TransmitterFrame s u) : Reported s pending r := by
  cases reported with
  | nothing => exact .nothing
  | sent high last => exact .sent (frame.txState ▸ high) (frame.txIdx ▸ frame.txb ▸ last)
  | clockTimeout busy => exact .clockTimeout (frame.txState ▸ busy)
  | windowTimeout idle asked => exact .windowTimeout (frame.txState ▸ idle) asked

/-! ## The cycle -/

/-- The pulses of a cycle without reset: the decoder's, the command port's answer, and the transmitter's report. -/
theorem execInWord_out {f : InWord} {s t : State} (run : f.rst = false) (h : execInWord f s = .next t) :
    ∃ p, DecoderPulses s.fsValid f.dbgTraceEn p
      ∧ t.out = { p with
          cmdResp := if f.cmdValid then (if s.cpValid then .busy else .accepted) else .noRequest
          txDone := t.out.txDone }
      ∧ Reported s (s.cpValid || f.cmdValid) t.out.txDone := by
  obtain ⟨u, stages, rfl⟩ := execInWord_stages run h
  obtain ⟨u1, u2, u3, u4, u5, ⟨h1, h2, h3, h4, h5, h6⟩, inp1, inp2, inp3, inp4, inp5⟩ := stages_chain run stages
  have run1 : u1.inp.rst = false := by rw [inp1]; exact run
  have run3 : u3.inp.rst = false := by rw [inp3]; exact run
  have run4 : u4.inp.rst = false := by rw [inp4]; exact run
  have run5 : u5.inp.rst = false := by rw [inp5]; exact run
  obtain ⟨-, out1⟩ := stage1_err run h1
  obtain ⟨-, out6⟩ := stage6_err run5 h6
  have decodes := stage2_pulses run1 out1 h2
  rw [(stage1_status run h1).2, inp1] at decodes
  have command : CommandFrame (beginCycle f s) u3 :=
    (stage1_command run h1).1.trans <| (stage2_frame h2 : DecoderFrame u1 u2).command.1.trans
      (stage3_frame h3 : SamplerFrame u2 u3).command.1
  have begun : TransmitterFrame s (beginCycle f s) := ⟨rfl, rfl, rfl, rfl, rfl, le_rfl, rfl, rfl⟩
  have frame : TransmitterFrame s u4 :=
    begun.trans <| (stage1_transmitter run h1).trans <| (stage2_transmitter h2).trans <|
      (stage3_transmitter h3).trans (stage4_transmitter run3 h4)
  have pending : u4.cpValid = (s.cpValid || f.cmdValid) := by
    rw [(stage4_pending run3 h4).1, command.cpValid, inp3]
    rfl
  have out4 : u4.out = { u2.out with
      cmdResp := if f.cmdValid then (if s.cpValid then .busy else .accepted) else .noRequest } := by
    rw [stage4_out run3 h4, (stage3_frame h3).out, command.cpValid, inp3, decodes.cmdResp]
    rfl
  have silent : u4.out.txDone = none := by rw [out4]; exact decodes.txDone
  refine ⟨u2.out, decodes, ?_, ?_⟩
  · rw [endCycle_out, out6, stage5_out run4 h5, out4]
  · rw [endCycle_out, out6, ← pending]
    exact (stage5_reported run4 silent h5).of_frame frame

/-- A cycle with reset pulses nothing (70 rule R280). -/
theorem execInWord_out_of_rst {f : InWord} {s t : State} (rst : f.rst = true) (h : execInWord f s = .next t) :
    t.out = Pulses.zero := by
  rw [execInWord_of_rst (execInWord_wf h) rst] at h
  cases h
  rfl

/-- Settles O57: the three parts of `execInWord_out`, port by port. -/
theorem pulseDrivers : Obligations.PulseDrivers := by
  intro s t f stepped
  rw [exec_inWord] at stepped
  refine ⟨fun rst => execInWord_out_of_rst rst stepped, fun run => ?_⟩
  obtain ⟨p, decodes, out, reported⟩ := execInWord_out run stepped
  refine ⟨by rw [out], by rw [out]; exact decodes.trc, fun empty => by rw [out]; exact decodes.reports empty,
    by rw [out]; exact decodes.stored, fun sent => ?_, fun clock => ?_, fun window => ?_⟩
  · rw [sent] at reported
    cases reported with
    | sent high last => exact ⟨high, last⟩
  · rw [clock] at reported
    cases reported with
    | clockTimeout busy => exact busy
  · rw [window] at reported
    cases reported with
    | windowTimeout idle asked => exact ⟨idle, Bool.or_eq_true_iff.mp asked⟩

end Sys2Proof.Machine
end
